-- ==== Sys2Proof/Word.lean ====
section
/-!
DEFINITION. The word types of the register-transport framer (RTF): bytes, register addresses and header words
(spec 00_scope.md R8, R10; 30_encoding.md R64). Bit 0 is the least significant bit of a value; all values are unsigned.
-/

namespace Sys2Proof

/-- One bus word: 8 bits (R7 `WORD_BITS`, R8). -/
abbrev Byte := BitVec 8

/-- A RegisterAddress as presented to RTF: 16 bits, of which 14 are a valid address (R7, R17). -/
abbrev RegisterAddress := BitVec 16

/-- The 24-bit header word `H`: byte 0 in bits 23 to 16, byte 1 in 15 to 8, byte 2 in 7 to 0 (R8, R64). -/
abbrev HeaderWord := BitVec 24

end Sys2Proof
end

