-- ==== Sys2Proof/Syntax.lean ====
section
/-!
DEFINITION. The operations of RTF: one constructor for each row of spec/opcode_table.json (30_encoding.md R71, R77, R78).
A value of `Instr` is one call of a requester: the operands of R31, with the address mode in the mnemonic.
-/

namespace Sys2Proof

/-- The calls a requester can make. The length of a write is the number of bytes of its payload, so a write whose length
differs from its payload cannot be written down (R31). -/
inductive Instr where
  /-- `READ.INC addr, len` (R100). -/
  | readInc (addr : RegisterAddress) (len : Nat)
  /-- `READ.DEC addr, len` (R101). A FORM NOTHING SHOWS (R73, R3; log entry 25). -/
  | readDec (addr : RegisterAddress) (len : Nat)
  /-- `WRITE.INC addr, data` (R105). -/
  | writeInc (addr : RegisterAddress) (data : List Byte)
  /-- `WRITE.DEC addr, data` (R106). A FORM NOTHING SHOWS (R73, R3; log entry 25). -/
  | writeDec (addr : RegisterAddress) (data : List Byte)
  /-- `PROBE`, the pseudo-operation that stands for `READ.INC 0x0064, 4` (R78, R102). -/
  | probe
  deriving DecidableEq, Repr, Inhabited

end Sys2Proof
end

