-- ==== Sys2Proof/Machine/Channels.lean ====
section
/-!
DEFINITION. The types of the messages that cross RTF's channels (10_state.md R18 to R20, R31 to R34; 00_scope.md R10), and
the moves of the agents of the modelled system (10_state.md R12 to R15, 40_transaction.md R95).
-/

namespace Sys2Proof.Machine

/-- `op`: the TransferDirection of a request (R18). -/
inductive TransferDirection where
  | read
  | write
  deriving DecidableEq, Repr, Inhabited

/-- `mode`: the AddressMode of a request (R18). -/
inductive AddressMode where
  | increment
  | decrement
  deriving DecidableEq, Repr, Inhabited

/-- A fault code of the transfer primitive (R7, R113, D10). The type IOCODE is open: the parameter `ioCodes` of an instance says
which codes it has. DESIGN CHOICE (log entry 7): a code is named by a token that no operation of RTF reads, so RTF can only copy it. -/
structure IoCode where
  token : Nat
  deriving DecidableEq, Repr, Inhabited

/-- One request message: the field record of R31. For a read `wdata` is empty; for a write `len` is the number of bytes of
`wdata`. The in-flight latch `T` holds the same record (R25). -/
structure Request where
  op    : TransferDirection
  mode  : AddressMode
  addr  : RegisterAddress
  len   : Nat
  wdata : List Byte
  deriving DecidableEq, Repr, Inhabited

/-- A TransferSegment (R20): `tx` is null or the bytes to send; `rx` says whether the segment asks for the received bytes
(the marker `recv`); `len` is its length in bytes. -/
structure TransferSegment where
  tx  : Option (List Byte)
  rx  : Bool
  len : Nat
  deriving DecidableEq, Repr, Inhabited

/-- A span: the segments handed to the transfer primitive under one chip-select assertion (R20, R33). -/
abbrev Span := List TransferSegment

/-- The transfer primitive's answer to a span (R34). -/
inductive Answer where
  | ok  (rx : List Byte)
  | err (code : IoCode)
  deriving DecidableEq, Repr, Inhabited

/-- The three errors of RTF (R110). -/
inductive TransportError where
  | invalidLength
  | invalidAddress
  | ioFailure (code : IoCode)
  deriving DecidableEq, Repr, Inhabited

/-- One response message (R32): data and success of a read, success of a write, or an error. -/
inductive Response where
  | okData (rdata : List Byte)
  | okDone
  | err (e : TransportError)
  deriving DecidableEq, Repr, Inhabited

/-- One step of one agent of the system of R12. A free value of the model picks these where no agenda does
(log entry 1). -/
inductive Move where
  /-- Requester `r` puts the call `i` into its own pending slot (R13). -/
  | present (r : Nat) (i : Instr)
  /-- Requester `r` changes the payload of the write that waits in its slot (R82, R137). -/
  | rewrite (r : Nat) (data : List Byte)
  /-- Requester `r` takes its response (R13). -/
  | take (r : Nat)
  /-- RTF takes its step ACCEPT(r); that `r` is chosen is the arbitration of R83. -/
  | accept (r : Nat)
  /-- The transfer primitive answers the span it was handed (R15). -/
  | answer (a : Answer)
  /-- RTF takes its step COMPLETE (R95). -/
  | complete
  /-- The instance is reset (R133). -/
  | reset
  deriving DecidableEq, Repr, Inhabited

end Sys2Proof.Machine
end

