-- ==== Sys2Proof/Config.lean ====
section
/-!
DEFINITION. The configuration of RTF: the document's literals (00_scope.md R7; D24 asks for them here and not in the step
function), the parameters an instance is made with, and the free values. A literal is changed here alone.
-/

namespace Sys2Proof

/-- `ADDR_PORT_BITS`, the width of a RegisterAddress as presented to RTF: that of the type in Word.lean (R7). -/
def Config.addrPortBits : Nat := 16

/-- `ADDR_VALID_BITS`, the width of the valid address range (R7). -/
def Config.addrValidBits : Nat := 14

/-- `ADDR_MAX`, the largest valid address (R7). -/
def Config.addrMax : RegisterAddress := 0x3FFF

/-- `OPC_READ`, header byte 0 of a read (R7, R59). -/
def Config.opcRead : Byte := 0x03

/-- The default of `OPC_WRITE`: PRESUMED 0x02, the spec's general knowledge and not in its source (R7, D1; log entry 4). -/
def Config.opcWriteDefault : Byte := 0x02

/-- `FLAG_INC`, bit 6 of header byte 1 (R7, R61). -/
def Config.flagInc : Byte := 0x40

/-- `FLAG_DEC`, bit 7 of header byte 1: DEDUCED by the spec from the place of the increment flag (R61, D2; log entry 15). The
operations that set it, READ.DEC and WRITE.DEC, are FORMS NOTHING SHOWS (R73, R3; log entry 25). -/
def Config.flagDec : Byte := 0x80

/-- The mask of the address bits in header byte 1 (R60, R75). -/
def Config.addrHiMask : Byte := 0x3F

/-- `HDR_LEN`, the bytes of a frame header (R7). -/
def Config.hdrLen : Nat := 3

/-- `WORD_BITS`, the bits of a bus word (R7). -/
def Config.wordBits : Nat := 8

/-- `SEG_PER_SPAN`, the segments of every span RTF issues (R7, R68). -/
def Config.segPerSpan : Nat := 2

/-- `ADDR_BYTE_TEST`, the address of the byte-test identification register (R7, R52). -/
def Config.addrByteTest : RegisterAddress := 0x0064

/-- `ADDR_ID_REV`, the address of the ID/revision register (R7, R52). -/
def Config.addrIdRev : RegisterAddress := 0x0050

/-- `PROBE_LEN`, the bytes PROBE reads (R7). -/
def Config.probeLen : Nat := 4

/-- The status code `OK` (R7, R70). -/
def Config.statusOk : BitVec 2 := 0

/-- The status code `INVALID_LENGTH` (R7, R70). -/
def Config.statusInvalidLength : BitVec 2 := 1

/-- The status code `INVALID_ADDRESS` (R7, R70). -/
def Config.statusInvalidAddress : BitVec 2 := 2

/-- The status code `IO_FAILURE` (R7, R70). -/
def Config.statusIoFailure : BitVec 2 := 3

/-- `ADDR_POLICY`: what an address above `ADDR_MAX` does (R7, R85). -/
inductive AddrPolicy where
  | reject
  | mask
  deriving DecidableEq, Repr, Inhabited

/-- What holds of the bus handle of an instance (R22): whether it is live (R136), how many instances of RTF use it and how many
other users it has (R146, D19), and the word size the bus behind it is configured for (R136). -/
structure BusHandle where
  live       : Bool
  instances  : Nat
  otherUsers : Nat
  wordBits   : Nat
  deriving DecidableEq, Repr, Inhabited

/-- The parameters of one instance that the spec leaves open (R7), and its bus handle (R22). They are fixed when the
instance is made; `maxLen` is `none` where lengths are unbounded. `ioCodes` is the type `IOCODE`, given by how many codes it has, and `none`
where their number is unbounded: RTF only copies a code, so nothing else of the type can show (R7, D10; log entry 7). -/
structure Params where
  opcWrite   : Byte
  addrPolicy : AddrPolicy
  maxLen     : Option Nat
  ioCodes    : Option Nat
  nReq       : Nat
  handle     : BusHandle
  deriving DecidableEq, Repr, Inhabited

/-- The defaults of R7. The spec leaves `N_REQ` open and gives it no default: DESIGN CHOICE one requester (log entry 5); the
handle meets the duties of R136 and R146: DESIGN CHOICE (log entry 6); nor a default for `IOCODE`: DESIGN CHOICE unboundedly many
codes (log entry 7). -/
def Params.default : Params where
  opcWrite   := Config.opcWriteDefault
  addrPolicy := .reject
  maxLen     := none
  ioCodes    := none
  nReq       := 1
  handle     := { live := true, instances := 1, otherUsers := 0, wordBits := Config.wordBits }

/-- The length `n` is a ByteCount: a natural number not above `MAX_LEN` (R10). -/
def Params.admitsLen (p : Params) (n : Nat) : Bool :=
  match p.maxLen with
  | none => true
  | some m => decide (n ≤ m)

/-- The parameters with another IOCODE. -/
def Params.withCodes (p : Params) (codes : Option Nat) : Params :=
  { p with ioCodes := codes }

/-- `code : IOCODE`: the code is one of the primitive's fault codes (R7, R15). -/
def Params.admitsCode (p : Params) (code : Machine.IoCode) : Bool :=
  match p.ioCodes with
  | none => true
  | some n => decide (code.token < n)

/-- FREE VALUE (log entry 1): the move the agents make at draw `n`, once the agenda of the state is used up. What requesters
ask and when (R13), which pending request is accepted (R83), what the primitive answers and when (R15, R103), and which
agent goes next are all open in the spec; nothing constrains this constant. -/
opaque Config.freeMove : Nat → Machine.Move

end Sys2Proof
end

