-- ==== Sys2Proof/Machine/State.lean ====
section
/-!
DEFINITION. The state of the modelled system (10_state.md R12, R21 to R34), the reasons a step can stop, and the state after
reset (R39, R133). RTF's own state is `phase`, the latch `T` and `rid`; the channels and slots belong to the system; the
parameters stand here as a field no step changes (log entry 3); `agenda`, `tick` and `sel` are the model's own (entries 1, 8).
-/

namespace Sys2Proof.Machine

/-- `phase`: whether a transaction is in flight (R26). -/
inductive Phase where
  | idle
  | xfer
  deriving DecidableEq, Repr, Inhabited

/-- The two places of one requester: its pending slot `pend[i]`, which is its request channel (R29, R31), and its response
channel `RSP[i]` (R32). -/
structure Port where
  pend : Option Instr
  rsp  : Option Response
  deriving DecidableEq, Repr, Inhabited

/-- A requester that has asked nothing (R39). -/
def Port.empty : Port where
  pend := none
  rsp  := none

/-- The content of the latch `T` and of `rid` after reset is unspecified (R39) and dead in IDLE (R25, R28). DESIGN CHOICE: a
read of 0 bytes at address 0 (log entry 2); unsafe only for a claim about the fields themselves, since no step reads them in
IDLE. -/
def Request.blank : Request where
  op    := .read
  mode  := .increment
  addr  := 0
  len   := 0
  wdata := []

structure State where
  /-- The parameters and the bus handle of the instance (R7, R22); no step changes them. -/
  params : Params
  /-- R26. -/
  phase : Phase
  /-- The in-flight latch `T` (R25); dead in IDLE. -/
  latch : Request
  /-- The owner of the transaction in flight (R28); dead in IDLE. -/
  rid : Nat
  /-- One entry for each requester, in the order of their indices (R29, R31, R32). -/
  ports : List Port
  /-- The channel SPAN: the span handed over and not yet answered (R33). -/
  span : Option Span
  /-- The channel SPAN_RESULT: the answer not yet read by COMPLETE (R34). -/
  spanResult : Option Answer
  /-- The model's own: the requester that ACCEPT serves, the arbiter's choice (R83, R95; log entry 8). -/
  sel : Nat
  /-- The model's own: the moves the agents make next, oldest first (log entry 1). -/
  agenda : List Move
  /-- The model's own: how many free moves have been drawn (log entry 1). -/
  tick : Nat
  deriving DecidableEq, Repr

/-- What has gone wrong in the modelled system (60_exceptions.md R132). The three errors of RTF are responses, not faults. -/
inductive Fault where
  /-- The span on SPAN breaks R68 or R72, and is not one that `headerOnlySpan` refuses (log entry 24). Raised by the transfer
  primitive's move, as the checker of R132 (c) and U9. Safe: the machine stops. No state that meets the invariant raises it. -/
  | brokenFramer
  deriving DecidableEq, Repr

/-- Configurations and host actions the spec gives no meaning (R132 (b), R137, U15). All are safe: the model stops. -/
inductive Refusal where
  /-- An instruction that has no meaning in this model yet; raised by `exec`'s own arms only. No arm raises it now. Safe. -/
  | notModelled (mnemonic : String)
  /-- `OPC_WRITE` equals `OPC_READ`, against R7. Raised by `step`. Safe. -/
  | opcodeClash
  /-- `MAX_LEN` is below 4, against R7. Raised by `step`. Safe. -/
  | shortMaxLen
  /-- `N_REQ` is 0, against R7. Raised by `step`. Safe. -/
  | noRequesters
  /-- The bus handle is not live (R136, U15). Raised by `step`. Safe. -/
  | deadHandle
  /-- The bus handle has not exactly one instance (R146, U15). Raised by `step`. Safe. -/
  | sharedHandle
  /-- The bus handle has a user that is no instance of RTF (R132 (b), R146, D19). Raised by `step`. Safe. -/
  | otherHandleUser
  /-- The bus is not configured for 8-bit words (R136). Raised by `step`. Safe. -/
  | busWordSize
  /-- A reset while a transaction is in flight (R135, U15). Raised by the reset move. Safe. -/
  | resetInFlight
  /-- A requester index outside 0 .. N_REQ-1 makes a call or changes a payload (R12). Raised by the requester's moves. Safe. -/
  | unknownRequester
  /-- A requester makes a call while it is blocked (R13, R137). Raised by the present move. Safe. -/
  | requesterBlocked
  /-- A call, or a changed payload, that R31 says cannot be expressed. Raised by the requester's moves. Safe. -/
  | inexpressible
  /-- A span stands on SPAN whose header RTF could emit and whose data segment has length 0 (U1, R147; with a bad header too it is
  `brokenFramer`, log entry 24). Raised by the primitive's move. Safe. -/
  | headerOnlySpan
  /-- The primitive answers with the wrong number of received bytes (R15, R34). Raised by the primitive's move. Safe. -/
  | answerLength
  /-- The primitive answers with a code that is none of IOCODE (R15). Raised by the primitive's move. Safe. -/
  | unknownCode
  deriving DecidableEq, Repr

/-- The instance right after construction with the parameters `p` (R39, R133), the agents' choices given. -/
def State.construct (p : Params) (agenda : List Move) (tick : Nat) : State where
  params := p
  phase := .idle
  latch := Request.blank
  rid := 0
  ports := List.replicate p.nReq Port.empty
  span := none
  spanResult := none
  sel := 0
  agenda := agenda
  tick := tick

/-- The state after reset at the default parameters, nothing on the agenda (R39; log entries 1 to 6 and 8). -/
def State.reset : State :=
  State.construct Params.default [] 0

end Sys2Proof.Machine
end

