-- ==== Sys2Proof/Machine/Flags.lean ====
section
/-!
DEFINITION. The one flag of RTF (10_state.md R27). It has one home, `phase`; there are no condition codes, so no operation
computes a flag in any other way.
-/

namespace Sys2Proof.Machine

/-- The bit of a phase: IDLE 0, XFER 1 (R26). -/
def Phase.bit : Phase → BitVec 1
  | .idle => 0
  | .xfer => 1

/-- `BUSY`, defined as `phase = XFER` (R27). -/
def State.busy (s : State) : Bool :=
  decide (s.phase = .xfer)

end Sys2Proof.Machine
end

