-- ==== Sys2Proof/WellFormed.lean ====
section
/-!
DEFINITION. When a call is well formed. `expressible`: it can be put on the request channel (10_state.md R31, 00_scope.md R10).
`encodable`: it has a frame, that is a valid address and at least one data byte (30_encoding.md R58, R63; 10_state.md R17).
-/

namespace Sys2Proof

/-- The number of data bytes a call names: its operand `len`, or the number of bytes of its payload (R19, R31). -/
def Instr.byteCount : Instr → Nat
  | .readInc _ len => len
  | .readDec _ len => len
  | .writeInc _ data => data.length
  | .writeDec _ data => data.length
  | .probe => Config.probeLen

/-- The address a call names (R31, R102). -/
def Instr.address : Instr → RegisterAddress
  | .readInc addr _ => addr
  | .readDec addr _ => addr
  | .writeInc addr _ => addr
  | .writeDec addr _ => addr
  | .probe => Config.addrByteTest

/-- The call can be put on the request channel: its length is a ByteCount (R31). -/
def Instr.expressible (p : Params) (i : Instr) : Bool :=
  p.admitsLen i.byteCount

/-- The call has a frame: a valid address (R17, R58) and a data phase of at least one byte (R63). -/
def Instr.encodable (i : Instr) : Bool :=
  decide (i.address ≤ Config.addrMax) && decide (1 ≤ i.byteCount)

/-- Both checks. -/
def Instr.wellFormed (p : Params) (i : Instr) : Bool :=
  i.expressible p && i.encodable

end Sys2Proof
end

