-- ==== Sys2Proof/Decode.lean ====
section
/-!
DEFINITION. Reading frames and spans back (30_encoding.md R71, R72, R74), and after it the encoder (R58 to R68). RTF only
encodes (R72); the decoder is that of a checker or a mock peripheral on the bus, and of a reader of the opcode table.
-/

namespace Sys2Proof

open Machine

/-- Why a frame or a span is none that RTF emits (R72). -/
inductive DecodeError where
  /-- Fewer than the 3 header bytes. -/
  | truncated
  /-- Header byte 0 is neither `OPC_READ` nor `OPC_WRITE`. -/
  | badOpcode
  /-- Neither mode flag is set. -/
  | noFlag
  /-- Both mode flags are set. -/
  | bothFlags
  /-- A header and no data phase. -/
  | headerOnly
  /-- Not two segments of the shapes of R66 and R67. -/
  | badSegments
  deriving DecidableEq, Repr

/-- What a decoder answers: a call, or a rejection by name. -/
inductive Decoded (α : Type) where
  | ok  (a : α)
  | bad (e : DecodeError)
  deriving DecidableEq, Repr

/-- The value decoded, if any. -/
def Decoded.value? {α : Type} : Decoded α → Option α
  | .ok a => some a
  | .bad _ => none

/-- The operands a header carries (R74). -/
structure HeaderFields where
  op   : TransferDirection
  mode : AddressMode
  addr : RegisterAddress
  deriving DecidableEq, Repr

/-- The opcode byte read back (R59, R74). -/
def decodeOpcode (p : Params) (b0 : Byte) : Option TransferDirection :=
  if b0 = Config.opcRead then some .read
  else if b0 = p.opcWrite then some .write
  else none

/-- The two flags of header byte 1 read back (R61, R74). -/
def decodeMode (b1 : Byte) : Decoded AddressMode :=
  if b1 &&& Config.flagDec = 0 then
    if b1 &&& Config.flagInc = 0 then .bad .noFlag else .ok .increment
  else
    if b1 &&& Config.flagInc = 0 then .ok .decrement else .bad .bothFlags

/-- The address bits of header bytes 1 and 2 read back: the valid address bits of `H` (R60, R74). -/
def decodeAddr (b1 b2 : Byte) : RegisterAddress :=
  ((b1 &&& Config.addrHiMask).setWidth 16 <<< Config.wordBits) ||| b2.setWidth 16

/-- A header read back (R74). -/
def decodeHeader (p : Params) (b0 b1 b2 : Byte) : Decoded HeaderFields :=
  match decodeOpcode p b0 with
  | none => .bad .badOpcode
  | some op =>
    match decodeMode b1 with
    | .bad e => .bad e
    | .ok mode => .ok { op := op, mode := mode, addr := decodeAddr b1 b2 }

/-- The call with these header fields and this data phase: of a read only its length counts (R63, R71). -/
def HeaderFields.call (h : HeaderFields) (data : List Byte) : Instr :=
  match h.op, h.mode with
  | .read, .increment => .readInc h.addr data.length
  | .read, .decrement => .readDec h.addr data.length
  | .write, .increment => .writeInc h.addr data
  | .write, .decrement => .writeDec h.addr data

/-- The decoder of a frame: the bytes of one span, the header told from the data by position and the end given by
chip-select (R65). It uses the four rows of R71 that are no pseudo-operation. -/
def decode (p : Params) : List Byte → Decoded Instr
  | b0 :: b1 :: b2 :: data =>
    match decodeHeader p b0 b1 b2 with
    | .bad e => .bad e
    | .ok h =>
      match data with
      | [] => .bad .headerOnly
      | d :: ds => .ok (h.call (d :: ds))
  | _ => .bad .truncated

/-- The data segment of a span read back, for the direction its header names (R66, R67). Its length is looked at before its shape:
DESIGN CHOICE (log entry 24). -/
def decodeDataSegment (h : HeaderFields) (seg : TransferSegment) : Decoded Instr :=
  if seg.len = 0 then .bad .headerOnly
  else
    match h.op, seg.tx, seg.rx with
    | .read, none, true => .ok (h.call (List.replicate seg.len 0))
    | .write, some data, false => if data.length = seg.len then .ok (h.call data) else .bad .badSegments
    | _, _, _ => .bad .badSegments

/-- The decoder of a span: it answers a call exactly for the spans RTF may issue (R68, R72). Where several things are wrong with a
span it names the first, the number of segments and the header segment before the data segment: DESIGN CHOICE (log entry 24). -/
def decodeSpan (p : Params) (sp : Span) : Decoded Instr :=
  if sp.length = Config.segPerSpan then
    match sp with
    | seg0 :: seg1 :: _ =>
      match seg0.tx, seg0.rx with
      | some [b0, b1, b2], false =>
        if seg0.len = Config.hdrLen then
          match decodeHeader p b0 b1 b2 with
          | .bad e => .bad e
          | .ok h => decodeDataSegment h seg1
        else .bad .badSegments
      | _, _ => .bad .badSegments
    | _ => .bad .badSegments
  else .bad .badSegments

/-! ## The encoder -/

/-- Header byte 0 (R59). -/
def opcodeByte (p : Params) : TransferDirection → Byte
  | .read => Config.opcRead
  | .write => p.opcWrite

/-- The mode flag of header byte 1 (R61). -/
def flagByte : AddressMode → Byte
  | .increment => Config.flagInc
  | .decrement => Config.flagDec

/-- Header byte 1: the mode flag or address bits 13 to 8 (R60, R75). -/
def addrHiByte (mode : AddressMode) (addr : RegisterAddress) : Byte :=
  flagByte mode ||| ((addr >>> Config.wordBits).setWidth 8 &&& Config.addrHiMask)

/-- Header byte 2: address bits 7 to 0 (R62). -/
def addrLoByte (addr : RegisterAddress) : Byte :=
  addr.setWidth 8

/-- The header encoder `Hdr(op, mode, addr)`, the single place where header bits are computed (R58). -/
def hdr (p : Params) (op : TransferDirection) (mode : AddressMode) (addr : RegisterAddress) : List Byte :=
  [opcodeByte p op, addrHiByte mode addr, addrLoByte addr]

/-- The header word `H` of a header (R8, R64). -/
def headerWord (p : Params) (op : TransferDirection) (mode : AddressMode) (addr : RegisterAddress) : HeaderWord :=
  opcodeByte p op ++ addrHiByte mode addr ++ addrLoByte addr

/-- The direction of a call (R77). -/
def Instr.direction : Instr → TransferDirection
  | .readInc _ _ => .read
  | .readDec _ _ => .read
  | .writeInc _ _ => .write
  | .writeDec _ _ => .write
  | .probe => .read

/-- The address mode of a call (R77). -/
def Instr.mode : Instr → AddressMode
  | .readInc _ _ => .increment
  | .readDec _ _ => .decrement
  | .writeInc _ _ => .increment
  | .writeDec _ _ => .decrement
  | .probe => .increment

/-- The payload of a call: empty for a read (R31). -/
def Instr.payload : Instr → List Byte
  | .readInc _ _ => []
  | .readDec _ _ => []
  | .writeInc _ data => data
  | .writeDec _ data => data
  | .probe => []

/-- The core operation a call stands for: PROBE is `READ.INC 0x0064, 4`, every other call is itself (R78). -/
def Instr.expand : Instr → Instr
  | .readInc addr len => .readInc addr len
  | .readDec addr len => .readDec addr len
  | .writeInc addr data => .writeInc addr data
  | .writeDec addr data => .writeDec addr data
  | .probe => .readInc Config.addrByteTest Config.probeLen

/-- The frame of a well-formed call, header and data phase (R63): `rx` is what the peripheral clocks out in the data phase of
a read, and plays no part in a write. -/
def encode (p : Params) (i : Instr) (rx : List Byte) : List Byte :=
  hdr p i.direction i.mode i.address ++
    match i.direction with
    | .read => rx
    | .write => i.payload

/-! ## Words of the opcode table -/

/-- The name the opcode table gives a core operation: the one PROBE stands for is named PROBE (R78), every other keeps its
name. -/
def Instr.foldPseudo (i : Instr) : Instr :=
  if i = .readInc Config.addrByteTest Config.probeLen then .probe else i

/-- The three bytes of a header word, byte 0 first on the bus (R64). -/
def headerBytes (h : HeaderWord) : List Byte :=
  [h.extractLsb' 16 8, h.extractLsb' 8 8, h.extractLsb' 0 8]

/-- The operation of a word of spec/opcode_table.json. A row is the 24-bit header word (R71); the data phase the word has no
bits for is laid out as 4 zero bytes, the length of a register read (R3) and of PROBE (R102); the decoder reads the frame at
the default `OPC_WRITE`, which the table is printed for; and the result takes the table's name. DESIGN CHOICE (log entries
10 and 11). -/
def decodeTableWord (nbits w : Nat) : Option Instr :=
  if nbits = 24 ∧ w < 2 ^ 24 then
    (decode Params.default (headerBytes (BitVec.ofNat 24 w) ++ [0, 0, 0, 0])).value?.map Instr.foldPseudo
  else none

end Sys2Proof
end

