-- ==== Sys2Proof/Machine/Operands.lean ====
section
/-!
DEFINITION. Operand forms and what is computed from them alone: the request record of a call (10_state.md R31), validation
(40_transaction.md R84 to R86), the span of a request (30_encoding.md R66, R67; 40_transaction.md R87 to R89), the response to an
answer (R91, R92), the codes of R18 and R70, and the wire view of a span (R79, R148).
-/

namespace Sys2Proof.Machine

/-! ## Codes -/

/-- The 1-bit code of `op` (R18). -/
def TransferDirection.code : TransferDirection → BitVec 1
  | .read => 0
  | .write => 1

/-- The 1-bit code of `mode` (R18). -/
def AddressMode.code : AddressMode → BitVec 1
  | .increment => 0
  | .decrement => 1

/-- The 2-bit status code of a response (R70). -/
def Response.status : Response → BitVec 2
  | .okData _ => Config.statusOk
  | .okDone => Config.statusOk
  | .err .invalidLength => Config.statusInvalidLength
  | .err .invalidAddress => Config.statusInvalidAddress
  | .err (.ioFailure _) => Config.statusIoFailure

/-- The field `rdata` of a response, present for a successful read only (R32). -/
def Response.rdata : Response → Option (List Byte)
  | .okData rdata => some rdata
  | .okDone => none
  | .err _ => none

/-- The field `code` of a response, present for an `IoFailure` only (R32). -/
def Response.code : Response → Option IoCode
  | .okData _ => none
  | .okDone => none
  | .err .invalidLength => none
  | .err .invalidAddress => none
  | .err (.ioFailure code) => some code

/-! ## Requests -/

/-- The request of a read call (R31): no payload. -/
def readRequest (mode : AddressMode) (addr : RegisterAddress) (len : Nat) : Request where
  op := .read
  mode := mode
  addr := addr
  len := len
  wdata := []

/-- The request of a write call (R31, R105): the length is the number of payload bytes. -/
def writeRequest (mode : AddressMode) (addr : RegisterAddress) (data : List Byte) : Request where
  op := .write
  mode := mode
  addr := addr
  len := data.length
  wdata := data

end Sys2Proof.Machine

namespace Sys2Proof

open Machine

/-- The request a call stands for (R77, R78). -/
def Instr.request : Instr → Request
  | .readInc addr len => readRequest .increment addr len
  | .readDec addr len => readRequest .decrement addr len
  | .writeInc addr data => writeRequest .increment addr data
  | .writeDec addr data => writeRequest .decrement addr data
  | .probe => readRequest .increment Config.addrByteTest Config.probeLen

/-- The spelling of a call's operation (R77). -/
def Instr.mnemonic : Instr → String
  | .readInc _ _ => "READ.INC"
  | .readDec _ _ => "READ.DEC"
  | .writeInc _ _ => "WRITE.INC"
  | .writeDec _ _ => "WRITE.DEC"
  | .probe => "PROBE"

end Sys2Proof

namespace Sys2Proof.Machine

/-- The core operation with this request (R69: every combination of `op` and `mode` is one of the four). -/
def Request.call (req : Request) : Instr :=
  match req.op, req.mode with
  | .read, .increment => .readInc req.addr req.len
  | .read, .decrement => .readDec req.addr req.len
  | .write, .increment => .writeInc req.addr req.wdata
  | .write, .decrement => .writeDec req.addr req.wdata

/-- The record is a request R31 can express: a read has no payload, a write has `len` payload bytes. -/
def Request.consistent (req : Request) : Bool :=
  match req.op with
  | .read => decide (req.wdata = [])
  | .write => decide (req.len = req.wdata.length)

/-! ## Validation -/

/-- The checks of a request, the length first (R84, R85, R86): the error to raise, if any. -/
def validate (p : Params) (req : Request) : Option TransportError :=
  if req.len = 0 then some .invalidLength
  else if Config.addrMax < req.addr ∧ p.addrPolicy = .reject then some .invalidAddress
  else none

/-- The address `a` a valid request goes on with (R85): under `mask` an address above `ADDR_MAX` loses its top two bits. -/
def effectiveAddress (p : Params) (addr : RegisterAddress) : RegisterAddress :=
  if Config.addrMax < addr ∧ p.addrPolicy = .mask then addr &&& Config.addrMax else addr

/-- What the latch holds of a request: the request, its `addr` field holding `a` (R90). -/
def Request.latched (p : Params) (req : Request) : Request :=
  { req with addr := effectiveAddress p req.addr }

/-! ## Spans -/

/-- Segment 0 of every span: the header is sent, nothing is received (R66, R67, R89). -/
def headerSegment (p : Params) (req : Request) : TransferSegment where
  tx := some (hdr p req.op req.mode req.addr)
  rx := false
  len := Config.hdrLen

/-- The read/write multiplexer's data segment (R88). -/
def dataSegment (req : Request) : TransferSegment :=
  match req.op with
  | .read => { tx := none, rx := true, len := req.len }
  | .write => { tx := some req.wdata, rx := false, len := req.len }

/-- The framer's span for a latched request (R89). -/
def spanOf (p : Params) (req : Request) : Span :=
  [headerSegment p req, dataSegment req]

/-- How many bytes a span asks to receive (R15, R34). -/
def receiveLength : Span → Nat
  | [] => 0
  | seg :: segs => (if seg.rx then seg.len else 0) + receiveLength segs

/-- Whether an answer is one the primitive may give to a span: `Ok(rx)` of the right length, or `Err(code)` with `code : IOCODE`
(R15). -/
def Answer.fits (p : Params) (sp : Span) : Answer → Bool
  | .ok rx => decide (rx.length = receiveLength sp)
  | .err code => p.admitsCode code

/-- The response to the primitive's answer (R91, R92): the multiplexer routes the bytes of a read, a write returns none, and a
fault becomes `IoFailure` with the same code. -/
def responseTo (op : TransferDirection) : Answer → Response
  | .ok rx =>
    match op with
    | .read => .okData rx
    | .write => .okDone
  | .err code => .err (.ioFailure code)

/-! ## The wire view -/

/-- The line from the bus master to the peripheral during a span: a byte RTF sends, or `none` where it sends nothing and the
spec gives no value (R79, N9). -/
def wireOut : Span → List (Option Byte)
  | [] => []
  | seg :: segs =>
    (match seg.tx with
     | some bytes => bytes.map some
     | none => List.replicate seg.len none) ++ wireOut segs

/-- The line from the peripheral to the bus master while the received bytes are `rx`: a byte RTF keeps, or `none` for one it
ignores. Every segment that receives takes its bytes off the front of `rx`, in order (R34, R79). -/
def wireInBytes : Span → List Byte → List (Option Byte)
  | [], _ => []
  | seg :: segs, rx =>
    if seg.rx then (rx.take seg.len).map some ++ wireInBytes segs (rx.drop seg.len)
    else List.replicate seg.len none ++ wireInBytes segs rx

/-- The line from the peripheral to the bus master during a span that the primitive answers so (R79). After a fault the spec does
not say what crossed the line (N17, U7), and no line is given (log entry 21). -/
def wireIn (sp : Span) : Answer → Option (List (Option Byte))
  | .ok rx => some (wireInBytes sp rx)
  | .err _ => none

/-- The bytes of a frame (R63). -/
def frameBytes : Span → Nat
  | [] => 0
  | seg :: segs => seg.len + frameBytes segs

/-- The bits a span moves in one chip-select assertion (R148). -/
def frameBits (sp : Span) : Nat :=
  Config.wordBits * frameBytes sp

end Sys2Proof.Machine
end

