-- ==== Sys2Proof/Machine/Ops.lean ====
section
/-!
DEFINITION. The named operations over the state: reading and changing ports and channels, giving a response and giving an
error (60_exceptions.md R118, the one place an error is raised; there is no return from one, R120), RTF's two steps ACCEPT and
COMPLETE (40_transaction.md R81 to R95), and the configurations that have no meaning (60_exceptions.md R132).
-/

namespace Sys2Proof.Machine

/-! ## Ports -/

/-- The call in the pending slot of requester `r`, if `r` is a requester and its slot is filled (R29). -/
def State.pendAt (s : State) (r : Nat) : Option Instr :=
  (s.ports[r]?).bind Port.pend

/-- The response on the channel `RSP[r]`, if any (R32). -/
def State.rspAt (s : State) (r : Nat) : Option Response :=
  (s.ports[r]?).bind Port.rsp

/-- Requester `r` fills its slot (R13). -/
def State.fillSlot (s : State) (r : Nat) (i : Instr) : State :=
  { s with ports := s.ports.modify r fun q => { q with pend := some i } }

/-- `pend[r] <- empty` (R81, R95). -/
def State.emptySlot (s : State) (r : Nat) : State :=
  { s with ports := s.ports.modify r fun q => { q with pend := none } }

/-- A message is put on `RSP[r]` (R32). -/
def State.putResponse (s : State) (r : Nat) (x : Response) : State :=
  { s with ports := s.ports.modify r fun q => { q with rsp := some x } }

/-- Requester `r` takes the message on `RSP[r]` (R13). -/
def State.dropResponse (s : State) (r : Nat) : State :=
  { s with ports := s.ports.modify r fun q => { q with rsp := none } }

/-! ## The span channels -/

/-- The primitive takes the span off SPAN and puts its answer on SPAN_RESULT (R15, R34). -/
def State.putAnswer (s : State) (a : Answer) : State :=
  { s with span := none, spanResult := some a }

/-- COMPLETE takes the answer off SPAN_RESULT (R95). -/
def State.takeAnswer (s : State) : State :=
  { s with spanResult := none }

/-! ## Responses and errors -/

/-- `Respond(x)` for the transaction of requester `r`: the message goes on `RSP[r]` and `phase` is IDLE (R9, R93). -/
def respond (r : Nat) (x : Response) (s : State) : State :=
  { s.putResponse r x with phase := .idle }

/-- `raise e` for the transaction of requester `r` (R118): `Err(e)` on its response channel and `phase` IDLE; nothing is saved, no
mode, mask, stack or vector is touched. -/
def raiseError (r : Nat) (e : TransportError) (s : State) : State :=
  respond r (.err e) s

/-! ## RTF's steps -/

/-- The framer's issue (R90): the span goes on SPAN, the latch and the owner are written, and `phase` is XFER. -/
def issue (r : Nat) (req : Request) (s : State) : State :=
  { s with
    latch := req.latched s.params
    rid := r
    span := some (spanOf s.params (req.latched s.params))
    phase := .xfer }

/-- What ACCEPT(r) does with the request it takes (R95): the slot is emptied, and the request is answered with an error or its
span is issued. -/
def accept (r : Nat) (req : Request) (s : State) : State :=
  match validate s.params req with
  | some e => raiseError r e (s.emptySlot r)
  | none => issue r req (s.emptySlot r)

/-- What COMPLETE does (R91, R92, R95): it reads the answer and answers the owner. Where no answer stands on SPAN_RESULT its
precondition fails and nothing happens (R140). -/
def complete (s : State) : State :=
  match s.spanResult with
  | none => s
  | some (.err code) => raiseError s.rid (.ioFailure code) s.takeAnswer
  | some (.ok rx) => respond s.rid (responseTo s.latch.op (.ok rx)) s.takeAnswer

/-- RTF's step on the operation `i` with the request `req`. In IDLE it is ACCEPT of the selected slot, whose precondition is that
the slot holds `i` (R81, R95). In XFER it is COMPLETE if this request is the one in flight; another one waits in its slot (R81,
R114: it is not refused). -/
def transactionStep (i : Instr) (req : Request) (s : State) : Host.Outcome State Fault Refusal :=
  match s.phase with
  | .idle => .next (if s.pendAt s.sel = some i then accept s.sel req s else s)
  | .xfer => .next (if s.latch = req.latched s.params then complete s else s)

/-! ## The agents' moves -/

/-- The move that comes next: the head of the agenda, or the next free value (log entry 1). -/
def State.nextMove (s : State) : Move :=
  match s.agenda with
  | m :: _ => m
  | [] => Config.freeMove s.tick

/-- The state once that move is drawn (log entry 1). -/
def State.advance (s : State) : State :=
  match s.agenda with
  | _ :: ms => { s with agenda := ms }
  | [] => { s with tick := s.tick + 1 }

/-- ACCEPT(r) is chosen (R83). -/
def State.select (s : State) (r : Nat) : State :=
  { s with sel := r }

/-! ## Configurations without meaning -/

/-- Why a system with these parameters has no meaning, if so: the handle's duties are the spec's (R132 (b), R136, R146, D19, U15);
that a breach of R7's constraints or of the word size is refused is the model's choice (log entry 22). -/
def admission (p : Params) : Option Refusal :=
  if p.opcWrite = Config.opcRead then some .opcodeClash
  else if p.admitsLen Config.probeLen = false then some .shortMaxLen
  else if p.nReq = 0 then some .noRequesters
  else if p.handle.live = false then some .deadHandle
  else if p.handle.instances ≠ 1 then some .sharedHandle
  else if p.handle.otherUsers ≠ 0 then some .otherHandleUser
  else if p.handle.wordBits ≠ Config.wordBits then some .busWordSize
  else none

end Sys2Proof.Machine
end

