-- ==== Sys2Proof/Machine/Read.lean ====
section
/-!
DEFINITION. The read family (41_read.md): READ.INC, READ.DEC and the pseudo-operation PROBE. Each is RTF's step on its own
request; the pipeline is `transactionStep` (40_transaction.md).
-/

namespace Sys2Proof.Machine

/-- READ.INC `addr, len` (R100). -/
def execReadInc (addr : RegisterAddress) (len : Nat) (s : State) : Host.Outcome State Fault Refusal :=
  transactionStep (.readInc addr len) (readRequest .increment addr len) s

/-- READ.DEC `addr, len` (R101). A FORM NOTHING SHOWS: no run of the source's code uses it (R73, R3; log entry 25). -/
def execReadDec (addr : RegisterAddress) (len : Nat) (s : State) : Host.Outcome State Fault Refusal :=
  transactionStep (.readDec addr len) (readRequest .decrement addr len) s

/-- PROBE (R102): the request of `READ.INC 0x0064, 4` (R78). -/
def execProbe (s : State) : Host.Outcome State Fault Refusal :=
  transactionStep .probe (readRequest .increment Config.addrByteTest Config.probeLen) s

end Sys2Proof.Machine
end

