-- ==== Sys2Proof/Machine/Write.lean ====
section
/-!
DEFINITION. The write family (42_write.md): WRITE.INC and WRITE.DEC. Each is RTF's step on its own request; the pipeline is
`transactionStep` (40_transaction.md).
-/

namespace Sys2Proof.Machine

/-- WRITE.INC `addr, data` (R105). -/
def execWriteInc (addr : RegisterAddress) (data : List Byte) (s : State) : Host.Outcome State Fault Refusal :=
  transactionStep (.writeInc addr data) (writeRequest .increment addr data) s

/-- WRITE.DEC `addr, data` (R106). A FORM NOTHING SHOWS: no run of the source's code uses it (R73, R3; log entry 25). -/
def execWriteDec (addr : RegisterAddress) (data : List Byte) (s : State) : Host.Outcome State Fault Refusal :=
  transactionStep (.writeDec addr data) (writeRequest .decrement addr data) s

end Sys2Proof.Machine
end

