-- ==== Sys2Proof/Machine/Dispatch.lean ====
section
/-!
DEFINITION. One arm for each operation: its meaning is RTF's step on it.
-/

namespace Sys2Proof.Machine

def exec (i : Instr) (s : State) : Host.Outcome State Fault Refusal :=
  match i with
  | .readInc addr len => Sys2Proof.Machine.execReadInc addr len s
  | .readDec addr len => Sys2Proof.Machine.execReadDec addr len s
  | .writeInc addr data => Sys2Proof.Machine.execWriteInc addr data s
  | .writeDec addr data => Sys2Proof.Machine.execWriteDec addr data s
  | .probe => Sys2Proof.Machine.execProbe s

end Sys2Proof.Machine
end

