-- ==== Sys2Proof/Machine/Agents.lean ====
section
/-!
DEFINITION. The moves of the agents (10_state.md R12 to R15): requesters, the transfer primitive, RTF and reset. RTF's moves run
`exec`. A move whose precondition fails changes nothing (log entry 9); a move that breaks a duty of R137 or R15 has no meaning in
the spec and is refused by name (log entry 9).
-/

namespace Sys2Proof.Machine

/-- Requester `r` is blocked: its slot is filled, its transaction is in flight, or its response is not taken (R13, R137). -/
def State.blocked (s : State) (r : Nat) : Bool :=
  (s.pendAt r).isSome || (s.rspAt r).isSome || (s.busy && decide (s.rid = r))

/-- Requester `r` makes the call `i` (R13, R29). -/
def presentMove (r : Nat) (i : Instr) (s : State) : Host.Outcome State Fault Refusal :=
  if s.ports.length ≤ r then .refused .unknownRequester
  else if s.blocked r then .refused .requesterBlocked
  else if i.expressible s.params = false then .refused .inexpressible
  else .next (s.fillSlot r i)

/-- The call with another payload of the same length: what a requester that changes its buffer before acceptance asks for
(R82). A payload of another length is another call and cannot be put into this one (R31). A read has no payload, so it stays. -/
def rewritePayload (data : List Byte) : Instr → Option Instr
  | .writeInc addr old => if data.length = old.length then some (.writeInc addr data) else none
  | .writeDec addr old => if data.length = old.length then some (.writeDec addr data) else none
  | .readInc addr len => some (.readInc addr len)
  | .readDec addr len => some (.readDec addr len)
  | .probe => some .probe

/-- Requester `r` changes its payload buffer. While its write waits, the change is in the request that will be accepted; once the
request is accepted it has no effect on anything (R82, R36). -/
def rewriteMove (r : Nat) (data : List Byte) (s : State) : Host.Outcome State Fault Refusal :=
  if s.ports.length ≤ r then .refused .unknownRequester
  else
    match s.pendAt r with
    | none => .next s
    | some i =>
      match rewritePayload data i with
      | none => .refused .inexpressible
      | some i' => .next (s.fillSlot r i')

/-- Requester `r` takes its response, if there is one (R13). -/
def takeMove (r : Nat) (s : State) : Host.Outcome State Fault Refusal :=
  .next (s.dropResponse r)

/-- RTF's step ACCEPT(r), where `phase` is IDLE and slot `r` is filled (R81, R95). -/
def acceptMove (r : Nat) (s : State) : Host.Outcome State Fault Refusal :=
  match s.phase, s.pendAt r with
  | .idle, some i => exec i (s.select r)
  | .idle, none => .next s
  | .xfer, _ => .next s

/-- Why an answer that does not fit its span is none the primitive may give (R15; log entry 9). -/
def Answer.misfit : Answer → Refusal
  | .ok _ => .answerLength
  | .err _ => .unknownCode

/-- The transfer primitive answers the span handed to it (R15, R34), having looked at it as the checker of R132 (c) does: a span
that RTF cannot emit is a broken framer (U9, R72), but one whose only defect is a data segment of length 0 is refused (U1, R147).
DESIGN CHOICE (log entry 24): the spec gives these two no priority, so where a span has both defects the header and its segment
are checked first and the answer is the fault. -/
def answerMove (a : Answer) (s : State) : Host.Outcome State Fault Refusal :=
  match s.span with
  | none => .next s
  | some sp =>
    match decodeSpan s.params sp with
    | .bad .headerOnly => .refused .headerOnlySpan
    | .bad _ => .fault .brokenFramer
    | .ok _ =>
      if a.fits s.params sp then .next (s.putAnswer a)
      else .refused a.misfit

/-- RTF's step COMPLETE on the transaction in flight (R95). -/
def completeMove (s : State) : Host.Outcome State Fault Refusal :=
  match s.phase with
  | .idle => .next s
  | .xfer => exec s.latch.call s

/-- Reset (R133): the state after construction, the parameters as configured and the agents' choices untouched. Not admitted
while a transaction is in flight (R135). -/
def resetMove (s : State) : Host.Outcome State Fault Refusal :=
  match s.phase with
  | .idle => .next (State.construct s.params s.agenda s.tick)
  | .xfer => .refused .resetInFlight

/-- One move of one agent. -/
def performMove (m : Move) (s : State) : Host.Outcome State Fault Refusal :=
  match m with
  | .present r i => presentMove r i s
  | .rewrite r data => rewriteMove r data s
  | .take r => takeMove r s
  | .accept r => acceptMove r s
  | .answer a => answerMove a s
  | .complete => completeMove s
  | .reset => resetMove s

/-- One step of the system: refused where the parameters have no meaning (R132 (b)), else the next agent's move. -/
def systemStep (s : State) : Host.Outcome State Fault Refusal :=
  match admission s.params with
  | some r => .refused r
  | none => performMove s.nextMove s.advance

/-- The state in which the next step is RTF's acceptance of the call `i`, made by requester 0 (log entry 12). -/
def placeCall (i : Instr) (s : State) : State :=
  { s with
    phase := .idle
    span := none
    spanResult := none
    ports := { pend := some i, rsp := none } :: s.ports.tail
    agenda := .accept 0 :: s.agenda }

end Sys2Proof.Machine
end

