-- ==== Sys2Proof/Machine/Step.lean ====
section
/-!
DEFINITION. The step of the system, and the host's way to place an operation where the next step runs it.
-/

namespace Sys2Proof.Machine

/-- One step: one move of one agent of R12. -/
def step (s : State) : Host.Outcome State Fault Refusal :=
  systemStep s

/-- RTF fetches nothing (R24): an operation comes to run when a requester's call stands in its slot, RTF is in IDLE and ACCEPT of
that slot is the next move. All of that is set for the operation of this opcode-table word (log entry 12). -/
def State.withFetchWord (s : State) (nbits w : Nat) : State :=
  match decodeTableWord nbits w with
  | none => s
  | some i => placeCall i s

end Sys2Proof.Machine
end

