-- ==== Sys2Proof/Machine/Mock.lean ====
section
/-!
DEFINITION. The reference mock peripheral of 95_test_vectors.md section 4: test equipment and no part of RTF or of State. A claim
that uses it names it as its oracle (41_read.md R103). Its memory is a canonical list of cells; a location not listed holds
0, as the programs P1 to P4 start ("all else 0").
-/

namespace Sys2Proof.Machine

/-! ## The mock's memory `M` -/

/-- The canonical form: addresses strictly rising, and no cell listed with the value an unlisted one reads as. -/
abbrev CellsWf (m : List Host.Cell) : Prop :=
  m.Pairwise (fun c d => c.1 < d.1) ∧ ∀ c ∈ m, c.2 ≠ 0

/-- `M[a]`. -/
def readCell : List Host.Cell → Nat → Byte
  | [], _ => 0
  | (k, v) :: m, a => if k = a then v else readCell m a

/-- `M` with a cell put in front that lies below every other; the value 0 is not listed. -/
def consCell (a : Nat) (b : Byte) (m : List Host.Cell) : List Host.Cell :=
  if b = 0 then m else (a, b) :: m

/-- `M[a] <- b`. -/
def writeCell : List Host.Cell → Nat → Byte → List Host.Cell
  | [], a, b => consCell a b []
  | (k, v) :: m, a, b =>
    if a < k then consCell a b ((k, v) :: m)
    else if a = k then consCell a b m
    else (k, v) :: writeCell m a b

/-- The address of byte `i` of a burst: the mock steps by +1 or by -1. -/
def burstAddress (mode : AddressMode) (a i : Nat) : Nat :=
  match mode with
  | .increment => a + i
  | .decrement => a - i

/-- The burst stays inside `0x0000` to `0x3FFF`, the only use the mock is made for. -/
def burstInside (mode : AddressMode) (a n : Nat) : Bool :=
  match mode with
  | .increment => decide (a + n ≤ Config.addrMax.toNat + 1)
  | .decrement => decide (a ≤ Config.addrMax.toNat ∧ n ≤ a + 1)

/-- The bytes of a burst from its `i`-th on. -/
def readBurst (m : List Host.Cell) (mode : AddressMode) (a i : Nat) : Nat → List Byte
  | 0 => []
  | n + 1 => readCell m (burstAddress mode a i) :: readBurst m mode a (i + 1) n

/-- `M` after the bytes of a burst from its `i`-th on are stored. -/
def writeBurst (m : List Host.Cell) (mode : AddressMode) (a i : Nat) : List Byte → List Host.Cell
  | [] => m
  | b :: bs => writeBurst (writeCell m (burstAddress mode a i) b) mode a (i + 1) bs

/-! ## The mock -/

/-- One scheduled answer. -/
inductive Scheduled where
  | serve
  | fault (code : IoCode)
  deriving DecidableEq, Repr

/-- The mock's state: `M`, the scheduled answers (serve when exhausted), and the spans seen, oldest first. -/
structure Mock where
  mem     : List Host.Cell
  plan    : List Scheduled
  history : List Span
  deriving DecidableEq, Repr

/-- What the mock does with a span: an answer, the report of a broken framer (U9), or nothing where the burst leaves the
space. -/
inductive MockResult where
  | answered (a : Answer) (m : Mock)
  | broken
  | outside
  deriving DecidableEq, Repr

/-- The mock once the span is recorded and its scheduled answer taken. -/
def Mock.record (m : Mock) (sp : Span) : Mock :=
  { m with plan := m.plan.tail, history := m.history ++ [sp] }

/-- The mock serves the call it decoded. -/
def Mock.perform (m : Mock) (i : Instr) : MockResult :=
  if burstInside i.mode i.address.toNat i.byteCount then
    match i.direction with
    | .read => .answered (.ok (readBurst m.mem i.mode i.address.toNat 0 i.byteCount)) m
    | .write => .answered (.ok []) { m with mem := writeBurst m.mem i.mode i.address.toNat 0 i.payload }
  else .outside

/-- The mock on one span. -/
def Mock.serve (p : Params) (sp : Span) (m : Mock) : MockResult :=
  match decodeSpan p sp with
  | .bad _ => .broken
  | .ok i =>
    match m.plan with
    | .fault code :: _ => .answered (.err code) (m.record sp)
    | _ => (m.record sp).perform i

/-- One transaction of RTF with the mock behind the handle (R94): the response and the mock after, or `none` where the mock has
no answer. -/
def transactMock (p : Params) (req : Request) (m : Mock) : Option (Response × Mock) :=
  match validate p req with
  | some e => some (.err e, m)
  | none =>
    match m.serve p (spanOf p (req.latched p)) with
    | .answered a m' => some (responseTo req.op a, m')
    | .broken => none
    | .outside => none

end Sys2Proof.Machine
end

