-- ==== Sys2Proof/Machine/Transaction.lean ====
section
/-!
DEFINITION. The whole transaction as one function (40_transaction.md R94), the form the two steps of the machine are held
against.
-/

namespace Sys2Proof.Machine

/-- What a transaction shows: the span it issues, if any, and its one response (R80). -/
structure Transaction where
  issued   : Option Span
  response : Response
  deriving DecidableEq, Repr

/-- `Exec(req)` (R94), with `prim` the transfer primitive's answer to each span. -/
def transact (p : Params) (req : Request) (prim : Span → Answer) : Transaction :=
  match validate p req with
  | some e => { issued := none, response := .err e }
  | none =>
    let sp := spanOf p (req.latched p)
    { issued := some sp, response := responseTo req.op (prim sp) }

end Sys2Proof.Machine
end

