-- ==== Sys2Proof/Safety.lean ====
section
/-!
DEFINITION. What claims are stated in: the invariant of the system, the ends of a run and the two stuck forms (60_exceptions.md R132),
what the rest of a state is, and which forms a run of the source's code shows (00_scope.md R3).
-/

namespace Sys2Proof.Machine

/-- The next state of an outcome, if there is one. -/
def nextState? (o : Host.Outcome State Fault Refusal) : Option State :=
  match o with
  | .next t => some t
  | .fault _ => none
  | .refused _ => none

/-- The response channel and slot of the owner, the latch and the two span channels fit a transaction in flight (R25, R26, R28,
R33, R34): the latch holds a valid request, the owner waits, and its span or the answer to it stands on a channel. -/
structure State.InFlight (s : State) : Prop where
  owner       : s.rid < s.params.nReq
  ownerSlot   : s.pendAt s.rid = none
  ownerRsp    : s.rspAt s.rid = none
  consistent  : s.latch.consistent = true
  lenPositive : 1 ≤ s.latch.len
  lenAdmitted : s.params.admitsLen s.latch.len = true
  addrValid   : s.latch.addr ≤ Config.addrMax
  channels    : (s.span = some (spanOf s.params s.latch) ∧ s.spanResult = none) ∨
    (s.span = none ∧ ∃ a, s.spanResult = some a ∧ a.fits s.params (spanOf s.params s.latch) = true)

/-- The invariant of the system: one port for each requester (R29); a requester with a filled slot has no untaken response, so
at most one request is outstanding (R13); every call in a slot can be expressed (R31); every code in a response is one of IOCODE
(R32, D10); nothing stands on the span channels in IDLE (R26, R39); and in XFER exactly one transaction is in flight (R26). -/
structure State.Inv (s : State) : Prop where
  portCount      : s.ports.length = s.params.nReq
  oneOutstanding : ∀ r i, s.pendAt r = some i → s.rspAt r = none
  expressible    : ∀ r i, s.pendAt r = some i → i.expressible s.params = true
  codes          : ∀ r code, s.rspAt r = some (.err (.ioFailure code)) → s.params.admitsCode code = true
  idleQuiet      : s.phase = .idle → s.span = none ∧ s.spanResult = none
  flight         : s.phase = .xfer → s.InFlight

/-- A run is over (R132): no slot is filled, every response is taken, and `phase` is IDLE. -/
def State.quiescent (s : State) : Bool :=
  decide (s.phase = .idle) && s.ports.all fun q => q.pend.isNone && q.rsp.isNone

/-- The transaction in flight has no answer yet: while this lasts RTF is stuck in the first form of R132 (a) (R140). -/
def State.awaitingAnswer (s : State) : Bool :=
  s.busy && s.spanResult.isNone

/-- The request in slot `r` has been made and not accepted: while this lasts requester `r` is stuck in the second form of
R132 (a). -/
def State.awaitingAcceptance (s : State) (r : Nat) : Bool :=
  (s.pendAt r).isSome

/-- The system makes `n` steps from `s`, and in none of the states it passes is there an answer. -/
def State.unansweredFor (s : State) (n : Nat) : Prop :=
  ∀ k, k ≤ n → ∃ t, Host.Core.run core k s = .next t ∧ t.awaitingAnswer = true

/-- The system makes `n` steps from `s`, and in all states it passes the slot `r` is filled, so its request is not accepted. -/
def State.unacceptedFor (s : State) (r n : Nat) : Prop :=
  ∀ k, k ≤ n → ∃ t, Host.Core.run core k s = .next t ∧ t.awaitingAcceptance r = true

/-- Stuck (R132 (a), R140): `phase = XFER` with no answer ever coming. -/
def State.stuckUnanswered (s : State) : Prop :=
  ∀ n, s.unansweredFor n

/-- Stuck (R132 (a)): the pending request of requester `r` is never accepted. -/
def State.stuckUnaccepted (s : State) (r : Nat) : Prop :=
  ∀ n, s.unacceptedFor r n

/-- RTF's ACCEPT of slot `s.sel` can happen and the slot holds `i` (R81, R95). -/
structure State.Ready (s : State) (i : Instr) : Prop where
  idle : s.phase = .idle
  slot : s.pendAt s.sel = some i

/-- The transaction in flight has the request `req`, its owner is a requester, and the answer `a` stands on SPAN_RESULT (R91, R92,
R95). -/
structure State.Answered (s : State) (req : Request) (a : Answer) : Prop where
  xfer   : s.phase = .xfer
  latch  : s.latch = req.latched s.params
  owner  : s.rid < s.ports.length
  result : s.spanResult = some a

/-- Every field that belongs to no transaction is as before: the parameters, the agents' choices and the number of requesters. -/
structure SameSurroundings (s t : State) : Prop where
  params : t.params = s.params
  sel    : t.sel = s.sel
  agenda : t.agenda = s.agenda
  tick   : t.tick = s.tick
  count  : t.ports.length = s.ports.length

/-- ACCEPT of slot `s.sel` issued the span `sp` and latched `T` (R90, R95), and changed nothing else. -/
structure SpanIssued (s t : State) (sp : Span) (T : Request) : Prop where
  phase      : t.phase = .xfer
  busy       : t.busy = true
  span       : t.span = some sp
  latch      : t.latch = T
  rid        : t.rid = s.sel
  slot       : t.pendAt s.sel = none
  otherSlots : ∀ r, r ≠ s.sel → t.pendAt r = s.pendAt r
  responses  : ∀ r, t.rspAt r = s.rspAt r
  spanResult : t.spanResult = s.spanResult
  rest       : SameSurroundings s t

/-- ACCEPT of slot `s.sel` rejected its request with the error `e` (R86, R118), and changed nothing else: no span, latch or
owner. -/
structure ErrorGiven (s t : State) (e : TransportError) : Prop where
  phase          : t.phase = .idle
  busy           : t.busy = false
  response       : t.rspAt s.sel = some (.err e)
  slot           : t.pendAt s.sel = none
  otherSlots     : ∀ r, r ≠ s.sel → t.pendAt r = s.pendAt r
  otherResponses : ∀ r, r ≠ s.sel → t.rspAt r = s.rspAt r
  span           : t.span = s.span
  spanResult     : t.spanResult = s.spanResult
  latch          : t.latch = s.latch
  rid            : t.rid = s.rid
  rest           : SameSurroundings s t

/-- COMPLETE gave the owner of the transaction in flight the response `x` (R91, R92, R95), and changed nothing else. -/
structure ResponseGiven (s t : State) (x : Response) : Prop where
  phase          : t.phase = .idle
  busy           : t.busy = false
  response       : t.rspAt s.rid = some x
  otherResponses : ∀ r, r ≠ s.rid → t.rspAt r = s.rspAt r
  slots          : ∀ r, t.pendAt r = s.pendAt r
  span           : t.span = s.span
  spanResult     : t.spanResult = none
  latch          : t.latch = s.latch
  rid            : t.rid = s.rid
  rest           : SameSurroundings s t

/-- The shape of every span RTF issues (R68): two segments, the first sends exactly 3 bytes, the second has at least one byte
and either sends or receives. -/
structure SpanShape (sp : Span) (seg0 seg1 : TransferSegment) : Prop where
  two      : sp = [seg0, seg1]
  header   : ∃ b0 b1 b2, seg0.tx = some [b0, b1, b2]
  sendOnly : seg0.rx = false
  three    : seg0.len = 3
  data     : 1 ≤ seg1.len
  oneWay   : (seg1.tx = none ∧ seg1.rx = true) ∨ (∃ bytes, seg1.tx = some bytes ∧ bytes.length = seg1.len ∧ seg1.rx = false)

/-- The state with the dead fields put to their reset values: the latch and the owner are dead in IDLE (R25, R28, R93), and so is
the model's `sel` at any time between two moves (log entry 8). -/
def State.forgetDead (s : State) : State :=
  match s.phase with
  | .idle => { s with latch := Request.blank, rid := 0, sel := 0 }
  | .xfer => { s with sel := 0 }

/-- An outcome with the dead fields of its next state forgotten. -/
def forgetDeadOutcome (o : Host.Outcome State Fault Refusal) : Host.Outcome State Fault Refusal :=
  match o with
  | .next t => .next t.forgetDead
  | .fault f => .fault f
  | .refused r => .refused r

/-! ## Another IOCODE: every fault code renamed by `f` -/

/-- The answer with its code renamed. -/
def Answer.recode (f : IoCode → IoCode) : Answer → Answer
  | .ok rx => .ok rx
  | .err code => .err (f code)

/-- The response with its code renamed. -/
def Response.recode (f : IoCode → IoCode) : Response → Response
  | .okData rdata => .okData rdata
  | .okDone => .okDone
  | .err .invalidLength => .err .invalidLength
  | .err .invalidAddress => .err .invalidAddress
  | .err (.ioFailure code) => .err (.ioFailure (f code))

/-- The move with the code of the primitive's answer renamed. -/
def Move.recode (f : IoCode → IoCode) : Move → Move
  | .present r i => .present r i
  | .rewrite r data => .rewrite r data
  | .take r => .take r
  | .accept r => .accept r
  | .answer a => .answer (a.recode f)
  | .complete => .complete
  | .reset => .reset

/-- The ports of a requester with the code of its response renamed. -/
def Port.recode (f : IoCode → IoCode) (q : Port) : Port :=
  { q with rsp := q.rsp.map (Response.recode f) }

/-- The same state under another IOCODE, wherever a code stands. -/
def State.recode (s : State) (codes : Option Nat) (f : IoCode → IoCode) : State :=
  { s with
    params := s.params.withCodes codes
    ports := s.ports.map (Port.recode f)
    spanResult := s.spanResult.map (Answer.recode f)
    agenda := s.agenda.map (Move.recode f) }

end Sys2Proof.Machine

namespace Sys2Proof

/-- A form that a run of the original code shows: the read of 4 bytes at 0x0064 in increment mode, under either of its names, and
nothing else (R3). READ.DEC and WRITE.DEC are forms nothing shows (R73; log entry 25). -/
def Instr.shown (i : Instr) : Bool :=
  decide (i.expand = .readInc Config.addrByteTest Config.probeLen)

end Sys2Proof
end

