-- ==== Sys2Proof/Certificates/Slice0/Obligations.lean ====
section
/-!
DEFINITION. The statements for the provers. Each docstring names the rules of spec/ it rests on; `SpanIssued`, `ErrorGiven`,
`ResponseGiven`, `SameSurroundings`, `State.Ready`, `State.Answered`, `State.Inv` and `SpanShape` are in Sys2Proof/Safety.lean and
spell out every field of the state.
-/

open Sys2Proof Sys2Proof.Machine

/-! ## Encoding -/

/-- R62: header byte 2 is address bits 7 to 0, that is `addr & 0xFF`, whatever the direction and the mode. -/
def Obligations.HeaderByteTwoIsLowAddress : Prop :=
  ∀ (p : Params) (op : TransferDirection) (mode : AddressMode) (addr : RegisterAddress),
    ∃ b0 b1 b2, hdr p op mode addr = [b0, b1, b2] ∧ b2 = addr.extractLsb' 0 8 ∧ b2.setWidth 16 = addr &&& 0xFF

/-- R59, R60, R61: byte 0 is the opcode and depends on the direction alone; byte 1 carries address bits 13 to 8 below two flag
bits, 01 for Increment and 10 for Decrement, whatever the direction. The decrement flag and the independence of byte 1 from
the direction are the spec's inferences (log entry 15). -/
def Obligations.HeaderOpcodeAndFlagBits : Prop :=
  ∀ (p : Params) (op : TransferDirection) (mode : AddressMode) (addr : RegisterAddress),
    ∃ b0 b1 b2, hdr p op mode addr = [b0, b1, b2] ∧
      (op = .read → b0 = 0x03) ∧ (op = .write → b0 = p.opcWrite) ∧
      b1.extractLsb' 0 6 = addr.extractLsb' 8 6 ∧
      (mode = .increment → b1.extractLsb' 6 2 = 0b01 ∧ b1 = 0x40 ||| ((addr >>> 8) &&& 0x3F).setWidth 8) ∧
      (mode = .decrement → b1.extractLsb' 6 2 = 0b10 ∧ b1 = 0x80 ||| ((addr >>> 8) &&& 0x3F).setWidth 8)

/-- R64: `H = (opcode << 16) | (dec << 15) | (inc << 14) | addr[13:0]`, with no bit in common. -/
def Obligations.HeaderWordIsTheSumOfItsFields : Prop :=
  ∀ (p : Params) (op : TransferDirection) (mode : AddressMode) (addr : RegisterAddress), addr ≤ 0x3FFF →
    (headerWord p op mode addr).toNat =
      (match op with | .read => 3 | .write => p.opcWrite.toNat) * 2 ^ 16 +
      (match mode with | .increment => 2 ^ 14 | .decrement => 2 ^ 15) + addr.toNat

/-- R74, R72: the image of the header encoder on valid addresses is exactly the words with one of the two opcodes and one
of the two flag patterns. -/
def Obligations.HeaderWordsAreExactlyTheFlaggedOnes : Prop :=
  ∀ (p : Params) (h : HeaderWord),
    (∃ op mode addr, addr ≤ (0x3FFF : RegisterAddress) ∧ headerWord p op mode addr = h) ↔
      ((h.extractLsb' 16 8 = 0x03 ∨ h.extractLsb' 16 8 = p.opcWrite) ∧
        (h.extractLsb' 14 2 = 0b01 ∨ h.extractLsb' 14 2 = 0b10))

/-- R63, R74: the frame of every well-formed call, whatever the peripheral clocks out in the data phase of a read, is read back
as the core operation the call stands for, with every operand; PROBE as `READ.INC 0x0064, 4` (R78). -/
def Obligations.DecodeInvertsEncode : Prop :=
  ∀ (p : Params) (i : Instr) (rx : List Byte),
    p.opcWrite ≠ 0x03 → i.wellFormed p = true → rx.length = i.byteCount →
    decode p (encode p i rx) = .ok i.expand

/-- R74: whatever frame the decoder accepts is the frame of the call it answers, and that call has a frame. -/
def Obligations.EncodeInvertsDecode : Prop :=
  ∀ (p : Params) (bytes : List Byte) (i : Instr), decode p bytes = .ok i →
    i.encodable = true ∧ i.expand = i ∧ (bytes.drop 3).length = i.byteCount ∧ encode p i (bytes.drop 3) = bytes

/-- R66, R67, R74: the span of every valid, consistent request is read back as the operation with that request. -/
def Obligations.SpanDecodesToItsRequest : Prop :=
  ∀ (p : Params) (req : Request), p.opcWrite ≠ 0x03 → req.consistent = true → 1 ≤ req.len → req.addr ≤ 0x3FFF →
    decodeSpan p (spanOf p req) = .ok req.call

/-- R71, 95_test_vectors.md V1: words written out from the header tables decode to the operation they stand for, one or
more of each family. -/
def Obligations.TableWordsDecode : Prop :=
  decode Params.default [0x03, 0x40, 0x64, 0xDE, 0xAD, 0xBE, 0xEF] = .ok (.readInc 0x0064 4) ∧
  decode Params.default [0x03, 0x92, 0x34, 0x01, 0x02] = .ok (.readDec 0x1234 2) ∧
  decode Params.default [0x02, 0x41, 0x20, 0x11, 0x22, 0x33, 0x44] = .ok (.writeInc 0x0120 [0x11, 0x22, 0x33, 0x44]) ∧
  decode Params.default [0x02, 0xBF, 0xFF, 0xAA] = .ok (.writeDec 0x3FFF [0xAA])

/-! ## ACCEPT: each operation issues its span -/

/-- R100, R90: READ.INC with a positive length and an address that is valid or masked issues the span of R100, latches the
request with `a = addr & 0x3FFF`, and changes nothing else. No alignment and no end of the space is asked (R48, R53). -/
def Obligations.ReadIncIssuesItsSpan : Prop :=
  ∀ (s : State) (addr : RegisterAddress) (len : Nat),
    s.Ready (.readInc addr len) → 1 ≤ len → (addr ≤ 0x3FFF ∨ s.params.addrPolicy = .mask) →
    ∃ t, exec (.readInc addr len) s = .next t ∧
      SpanIssued s t
        [{ tx := some [0x03, 0x40 ||| (addr.extractLsb' 8 6).setWidth 8, addr.extractLsb' 0 8], rx := false, len := 3 },
         { tx := none, rx := true, len := len }]
        { op := .read, mode := .increment, addr := addr &&& 0x3FFF, len := len, wdata := [] }

/-- R101: READ.DEC, as READ.INC with the decrement flag (the spec's inference, log entry 15). -/
def Obligations.ReadDecIssuesItsSpan : Prop :=
  ∀ (s : State) (addr : RegisterAddress) (len : Nat),
    s.Ready (.readDec addr len) → 1 ≤ len → (addr ≤ 0x3FFF ∨ s.params.addrPolicy = .mask) →
    ∃ t, exec (.readDec addr len) s = .next t ∧
      SpanIssued s t
        [{ tx := some [0x03, 0x80 ||| (addr.extractLsb' 8 6).setWidth 8, addr.extractLsb' 0 8], rx := false, len := 3 },
         { tx := none, rx := true, len := len }]
        { op := .read, mode := .decrement, addr := addr &&& 0x3FFF, len := len, wdata := [] }

/-- R105: WRITE.INC with a payload that is not empty, for every value of `OPC_WRITE`. -/
def Obligations.WriteIncIssuesItsSpan : Prop :=
  ∀ (s : State) (addr : RegisterAddress) (data : List Byte),
    s.Ready (.writeInc addr data) → data ≠ [] → (addr ≤ 0x3FFF ∨ s.params.addrPolicy = .mask) →
    ∃ t, exec (.writeInc addr data) s = .next t ∧
      SpanIssued s t
        [{ tx := some [s.params.opcWrite, 0x40 ||| (addr.extractLsb' 8 6).setWidth 8, addr.extractLsb' 0 8],
           rx := false, len := 3 },
         { tx := some data, rx := false, len := data.length }]
        { op := .write, mode := .increment, addr := addr &&& 0x3FFF, len := data.length, wdata := data }

/-- R106: WRITE.DEC, as WRITE.INC with the decrement flag (the spec's inference, log entry 15). -/
def Obligations.WriteDecIssuesItsSpan : Prop :=
  ∀ (s : State) (addr : RegisterAddress) (data : List Byte),
    s.Ready (.writeDec addr data) → data ≠ [] → (addr ≤ 0x3FFF ∨ s.params.addrPolicy = .mask) →
    ∃ t, exec (.writeDec addr data) s = .next t ∧
      SpanIssued s t
        [{ tx := some [s.params.opcWrite, 0x80 ||| (addr.extractLsb' 8 6).setWidth 8, addr.extractLsb' 0 8],
           rx := false, len := 3 },
         { tx := some data, rx := false, len := data.length }]
        { op := .write, mode := .decrement, addr := addr &&& 0x3FFF, len := data.length, wdata := data }

/-- R102, R78: PROBE always passes validation and issues the span of `READ.INC 0x0064, 4`. -/
def Obligations.ProbeIssuesItsSpan : Prop :=
  ∀ (s : State), s.Ready .probe →
    ∃ t, exec .probe s = .next t ∧
      SpanIssued s t
        [{ tx := some [0x03, 0x40, 0x64], rx := false, len := 3 }, { tx := none, rx := true, len := 4 }]
        { op := .read, mode := .increment, addr := 0x0064, len := 4, wdata := [] }

/-! ## ACCEPT: the two errors of validation -/

/-- R84: every call of 0 bytes, at any address and under either policy, is answered `InvalidLength` and issues no span; a length
above `MAX_LEN` never gets into a slot; and nothing else about a length is checked. -/
def Obligations.ZeroLengthIsRejected : Prop :=
  (∀ (s : State) (i : Instr), s.Ready i → i.byteCount = 0 →
    ∃ t, exec i s = .next t ∧ ErrorGiven s t .invalidLength) ∧
  (∀ (r : Nat) (i : Instr) (s t : State), presentMove r i s = .next t → s.params.admitsLen i.byteCount = true) ∧
  (∀ (p : Params) (req : Request) (n m : Nat), n ≠ 0 → m ≠ 0 →
    validate p { req with len := n } = validate p { req with len := m })

/-- R85, R86, R112: under `reject` a call with an address above 0x3FFF and a positive length is answered `InvalidAddress` and
issues no span; under `mask` the error is never raised; and an address up to 0x3FFF never raises it. -/
def Obligations.AddressAboveRangeIsRejected : Prop :=
  (∀ (s : State) (i : Instr), s.Ready i → i.byteCount ≠ 0 → 0x3FFF < i.address → s.params.addrPolicy = .reject →
    ∃ t, exec i s = .next t ∧ ErrorGiven s t .invalidAddress) ∧
  (∀ (p : Params) (req : Request), p.addrPolicy = .mask → validate p req ≠ some .invalidAddress) ∧
  (∀ (p : Params) (req : Request), req.addr ≤ 0x3FFF → validate p req ≠ some .invalidAddress)

/-- R141: under `mask` addresses that differ only in bits 15 and 14 give the same span, among them 0x4064, 0x8064 and 0xC064,
which reach 0x0064; under `reject` two accepted addresses with the same header are the same address. -/
def Obligations.MaskedAddressesAlias : Prop :=
  (∀ (p : Params) (req : Request) (a b : RegisterAddress), p.addrPolicy = .mask → a &&& 0x3FFF = b &&& 0x3FFF →
    spanOf p ({ req with addr := a }.latched p) = spanOf p ({ req with addr := b }.latched p)) ∧
  (∀ (p : Params) (a : RegisterAddress), p.addrPolicy = .mask → a ∈ [0x4064, 0x8064, 0xC064] →
    effectiveAddress p a = 0x0064) ∧
  (∀ (p : Params) (req : Request) (a b : RegisterAddress), p.addrPolicy = .reject →
    validate p { req with addr := a } = none → validate p { req with addr := b } = none →
    hdr p req.op req.mode (effectiveAddress p a) = hdr p req.op req.mode (effectiveAddress p b) → a = b)

/-! ## COMPLETE -/

/-- R100, R101, R102, R91: in XFER, READ.INC, READ.DEC and PROBE turn `Ok(rx)` into a response with exactly those bytes, in that
order and unchecked, and change nothing else. -/
def Obligations.ReadsRespondWithTheBytes : Prop :=
  ∀ (s : State) (i : Instr) (rx : List Byte), i.direction = .read → s.Answered i.request (.ok rx) →
    ∃ t, exec i s = .next t ∧ ResponseGiven s t (.okData rx)

/-- R105, R106, R91: in XFER, WRITE.INC and WRITE.DEC turn `Ok` into a success without data, and change nothing else. -/
def Obligations.WritesRespondWithoutData : Prop :=
  ∀ (s : State) (i : Instr) (rx : List Byte), i.direction = .write → s.Answered i.request (.ok rx) →
    ∃ t, exec i s = .next t ∧ ResponseGiven s t .okDone

/-- R92, R113: in XFER every operation, PROBE included, turns `Err(code)` into `IoFailure` with the same code, without data and
without another span. -/
def Obligations.PrimitiveFaultsBecomeIoFailure : Prop :=
  ∀ (s : State) (i : Instr) (code : IoCode), s.Answered i.request (.err code) →
    ∃ t, exec i s = .next t ∧ ResponseGiven s t (.err (.ioFailure code))

/-- R91, at the step: when `Ok(rx)` stands on SPAN_RESULT, COMPLETE gives the owner the `T.len` bytes `rx` of a read, or the
success of a write. -/
def Obligations.SuccessfulCompletion : Prop :=
  ∀ (s : State) (rx : List Byte), s.Inv → admission s.params = none → s.nextMove = .complete → s.phase = .xfer →
    s.spanResult = some (.ok rx) →
    ∃ t, step s = .next t ∧
      (s.latch.op = .read → rx.length = s.latch.len ∧ ResponseGiven s.advance t (.okData rx)) ∧
      (s.latch.op = .write → ResponseGiven s.advance t .okDone)

/-- R92, at the step: when `Err(code)` stands on SPAN_RESULT, COMPLETE gives the owner `IoFailure(code)`, for either direction,
with no data; no span is on the bus afterwards (no retry). -/
def Obligations.FailedCompletion : Prop :=
  ∀ (s : State) (code : IoCode), s.Inv → admission s.params = none → s.nextMove = .complete → s.phase = .xfer →
    s.spanResult = some (.err code) →
    ∃ t, step s = .next t ∧ ResponseGiven s.advance t (.err (.ioFailure code)) ∧
      (Response.err (.ioFailure code)).rdata = none ∧ t.span = none

/-! ## Acceptance, exclusion, BUSY -/

/-- R81: ACCEPT takes only in IDLE, only from a filled slot, and empties it; in XFER every request waits in its slot; and a slot
is emptied by no other step than its ACCEPT, or a reset. That an ACCEPT which is not possible is a step that changes nothing is the
model's choice (log entry 9); the reset is the spec's decision D12 with the model's form of it (log entry 18). -/
def Obligations.AcceptanceNeedsIdleAndAFilledSlot : Prop :=
  ∀ (s : State), admission s.params = none →
    (∀ r, s.nextMove = .accept r → (s.phase = .xfer ∨ s.pendAt r = none) → step s = .next s.advance) ∧
    (∀ r i, s.nextMove = .accept r → s.phase = .idle → s.pendAt r = some i →
      ∃ t, step s = .next t ∧ t.pendAt r = none ∧ ∀ q, q ≠ r → t.pendAt q = s.pendAt q) ∧
    (∀ r i t, step s = .next t → s.pendAt r = some i → t.pendAt r = none →
      s.phase = .idle ∧ (s.nextMove = .accept r ∨ s.nextMove = .reset))

/-- R81, R114: in XFER an operation that is not the one in flight waits and changes nothing; in IDLE so does one that does not
stand in the selected slot. -/
def Obligations.OtherOperationsWait : Prop :=
  (∀ (s : State) (i : Instr), s.phase = .xfer → s.latch ≠ i.request.latched s.params → exec i s = .next s) ∧
  (∀ (s : State) (i : Instr), s.phase = .idle → s.pendAt s.sel ≠ some i → exec i s = .next s)

/-- R27: BUSY is `phase = XFER`; it is 0 after reset, set only by an ACCEPT that issues a span, cleared only by COMPLETE, and read
by ACCEPT's precondition. That an ACCEPT with BUSY set is a step that changes nothing is the model's choice (log entry 9). -/
def Obligations.BusyIsSetByAcceptAndClearedByComplete : Prop :=
  State.reset.busy = false ∧
  (∀ s : State, s.busy = true ↔ s.phase = .xfer) ∧
  (∀ s t : State, step s = .next t → s.busy = false → t.busy = true →
    ∃ r i, s.nextMove = .accept r ∧ s.pendAt r = some i ∧
      t.span = some (spanOf s.params (i.request.latched s.params))) ∧
  (∀ s t : State, step s = .next t → s.busy = true → t.busy = false → s.nextMove = .complete ∧ s.spanResult ≠ none) ∧
  (∀ (s : State) (r : Nat), admission s.params = none → s.nextMove = .accept r → s.busy = true →
    step s = .next s.advance)

/-- R123: a request rejected by validation leaves BUSY clear and is answered in the ACCEPT step; COMPLETE clears BUSY whatever
the answer was. -/
def Obligations.NoErrorLeavesBusySet : Prop :=
  (∀ (s : State) (r : Nat) (i : Instr) (e : TransportError), admission s.params = none → s.nextMove = .accept r →
    s.phase = .idle → s.pendAt r = some i → validate s.params i.request = some e →
    ∃ t, step s = .next t ∧ t.busy = false ∧ t.rspAt r = some (.err e)) ∧
  (∀ (s : State) (a : Answer), s.Inv → admission s.params = none → s.nextMove = .complete → s.phase = .xfer →
    s.spanResult = some a → ∃ t, step s = .next t ∧ t.busy = false)

/-- R55 (a), R139: while a transaction is in flight no step puts another span on SPAN. -/
def Obligations.SpansNeverOverlap : Prop :=
  ∀ (s t : State) (sp : Span), step s = .next t → s.phase = .xfer → t.span = some sp → s.span = some sp

/-- R51, R80: a span appears on SPAN only by the ACCEPT of a valid request that stood in the accepted slot, and it is that
request's span. -/
def Obligations.SpansComeFromValidRequests : Prop :=
  ∀ (s t : State) (sp : Span), step s = .next t → t.span = some sp → s.span ≠ some sp →
    ∃ r i, s.nextMove = .accept r ∧ s.phase = .idle ∧ s.pendAt r = some i ∧
      validate s.params i.request = none ∧ sp = spanOf s.params (i.request.latched s.params)

/-- R68: every span that stands on SPAN after a step from a state that meets the invariant has the two segments R68 asks. -/
def Obligations.EveryIssuedSpanHasTwoSegments : Prop :=
  ∀ (s t : State) (sp : Span), s.Inv → step s = .next t → t.span = some sp →
    ∃ seg0 seg1, SpanShape sp seg0 seg1 ∧ receiveLength sp = (if t.latch.op = .read then t.latch.len else 0)

/-- R140: while the primitive does not answer, however many moves the other agents make, RTF stays in XFER with the same span
on SPAN, the requester in flight gets no response, and no filled slot is served; and no step leaves XFER but a COMPLETE
that has an answer. That the span stays on SPAN is the model's choice (log entry 14), and the scheduled moves are the model's own
(log entry 1); that T and rid stay is R25 and R28. -/
def Obligations.UnansweredSpanHoldsForEver : Prop :=
  (∀ (ms rest : List Move) (s t : State), s.agenda = ms ++ rest → (∀ a, Move.answer a ∉ ms) → s.phase = .xfer →
    s.spanResult = none → s.rspAt s.rid = none → Host.Core.run core ms.length s = .next t →
    t.phase = .xfer ∧ t.spanResult = none ∧ t.span = s.span ∧ t.latch = s.latch ∧ t.rid = s.rid ∧
      t.rspAt s.rid = none ∧ ∀ r i, s.pendAt r = some i → ∃ i', t.pendAt r = some i') ∧
  (∀ s t : State, step s = .next t → s.phase = .xfer → t.phase = .idle → s.nextMove = .complete ∧ s.spanResult ≠ none)

/-! ## Whole transactions -/

/-- R94, R95: from IDLE, ACCEPT, the primitive's answer and COMPLETE together do what the one function `Exec` of R94 says: the span
issued is its span and the response its response; a request it rejects is answered by ACCEPT alone, with no span. -/
def Obligations.TwoStepsRefineTheTransaction : Prop :=
  (∀ (s : State) (r : Nat) (i : Instr) (a : Answer) (ms : List Move), s.Inv → admission s.params = none →
    s.phase = .idle → s.pendAt r = some i → s.agenda = .accept r :: .answer a :: .complete :: ms →
    validate s.params i.request = none → a.fits s.params (spanOf s.params (i.request.latched s.params)) = true →
    ∃ u v t, step s = .next u ∧ step u = .next v ∧ step v = .next t ∧
      u.span = (transact s.params i.request fun _ => a).issued ∧
      t.rspAt r = some (transact s.params i.request fun _ => a).response ∧
      t.phase = .idle ∧ t.span = none ∧ t.spanResult = none ∧ t.pendAt r = none ∧ t.agenda = ms ∧
      t.params = s.params ∧ ∀ q, q ≠ r → t.pendAt q = s.pendAt q ∧ t.rspAt q = s.rspAt q) ∧
  (∀ (s : State) (r : Nat) (i : Instr) (prim : Span → Answer), admission s.params = none →
    s.phase = .idle → s.pendAt r = some i → s.nextMove = .accept r → validate s.params i.request ≠ none →
    ∃ t, step s = .next t ∧ (transact s.params i.request prim).issued = none ∧ t.span = s.span ∧
      t.rspAt r = some (transact s.params i.request prim).response ∧ t.phase = .idle ∧ t.pendAt r = none)

/-- R99: equal requests under equal parameters issue equal spans, or get equal errors, whatever else the two states hold; and the
response to an answer depends on the request in flight and the answer alone. -/
def Obligations.TransactionsAreDeterministic : Prop :=
  (∀ (s₁ s₂ t₁ t₂ : State) (i₁ i₂ : Instr), s₁.params = s₂.params → i₁.request = i₂.request → s₁.Ready i₁ → s₂.Ready i₂ →
    exec i₁ s₁ = .next t₁ → exec i₂ s₂ = .next t₂ →
    (validate s₁.params i₁.request = none → t₁.span = t₂.span ∧ t₁.span ≠ none) ∧
    (validate s₁.params i₁.request ≠ none → t₁.rspAt s₁.sel = t₂.rspAt s₂.sel ∧ t₁.rspAt s₁.sel ≠ none)) ∧
  (∀ (s₁ s₂ t₁ t₂ : State) (i₁ i₂ : Instr) (a : Answer), s₁.params = s₂.params → i₁.request = i₂.request →
    s₁.Answered i₁.request a → s₂.Answered i₂.request a → exec i₁ s₁ = .next t₁ → exec i₂ s₂ = .next t₂ →
    t₁.rspAt s₁.rid = t₂.rspAt s₂.rid ∧ t₁.rspAt s₁.rid ≠ none)

/-- R21, R25, R28, R93: no step reads the latch or the owner in IDLE: forgetting them before a step gives the same outcome up to
what is forgotten. The field `sel` is the model's own (log entry 8). -/
def Obligations.DeadFieldsAreNeverRead : Prop :=
  ∀ s : State, forgetDeadOutcome (step s.forgetDead) = forgetDeadOutcome (step s)

/-! ## The step, its invariant, reset -/

/-- R95: when ACCEPT(r) comes next in IDLE and slot `r` holds `i`, the step is `exec` of `i`; when COMPLETE comes next in XFER, it is
`exec` of the operation in flight. The agenda and `sel` are the model's own (log entries 1 and 8). -/
def Obligations.StepRunsTheOperation : Prop :=
  (∀ (s : State) (r : Nat) (i : Instr), admission s.params = none → s.nextMove = .accept r → s.phase = .idle →
    s.pendAt r = some i → step s = exec i (s.advance.select r)) ∧
  (∀ s : State, admission s.params = none → s.nextMove = .complete → s.phase = .xfer →
    step s = exec s.latch.call s.advance)

/-- The model's choice (log entries 10 to 12): an operation placed by an opcode-table word is the one the next step runs. -/
def Obligations.PlacedWordRunsNext : Prop :=
  ∀ (s : State) (nbits w : Nat) (i : Instr), admission s.params = none → decodeTableWord nbits w = some i →
    ∃ u : State, u.Ready i ∧ u.params = s.params ∧ step (s.withFetchWord nbits w) = exec i u

/-- R39: after reset `phase` is IDLE, BUSY is 0, and every slot and channel is empty; the invariant holds. -/
def Obligations.ResetMeetsTheInvariant : Prop :=
  State.reset.Inv ∧ State.reset.phase = .idle ∧ State.reset.busy = false ∧ State.reset.span = none ∧
    State.reset.spanResult = none ∧ (∀ r, State.reset.pendAt r = none ∧ State.reset.rspAt r = none) ∧
    State.reset.quiescent = true

/-- Every step keeps the invariant (R13, R26, R28, R29, R31, R33, R34, R39). -/
def Obligations.StepKeepsTheInvariant : Prop :=
  ∀ s t : State, s.Inv → step s = .next t → t.Inv

/-- R132 (c): from a state that meets the invariant no step reports a broken framer, nor a header-only span. -/
def Obligations.FramerIsNeverBroken : Prop :=
  ∀ s : State, s.Inv → step s ≠ .fault .brokenFramer ∧ step s ≠ .refused .headerOnlySpan

/-- R7, R22, R39: no step changes the parameters, nor, from a state with one port for each requester, their number. -/
def Obligations.ParametersNeverChange : Prop :=
  ∀ s t : State, step s = .next t →
    t.params = s.params ∧ (s.ports.length = s.params.nReq → t.ports.length = s.params.nReq)

/-- R133, R135 (the spec's decisions D12, D13): reset in IDLE empties every slot and channel and keeps the parameters; in XFER it
is refused. That the agents' choices survive is the model's (log entry 18). -/
def Obligations.ResetMoveIsForIdleOnly : Prop :=
  ∀ s : State, admission s.params = none → s.nextMove = .reset →
    (s.phase = .xfer → step s = .refused .resetInFlight) ∧
    (s.phase = .idle → ∃ t, step s = .next t ∧ t.phase = .idle ∧ t.params = s.params ∧ t.span = none ∧
      t.spanResult = none ∧ t.ports.length = s.params.nReq ∧ ∀ r, t.pendAt r = none ∧ t.rspAt r = none)

/-- R132 (b), R136, R146, R7: with a dead handle, or one that another number of instances than one uses, or that has any other
user, every step is refused (the spec's decisions D19 and D20). With a write opcode equal to the read opcode, a `MAX_LEN` below 4, no
requester, or a bus that is not 8 bits wide, every step is refused too: the model's choice (log entry 22). Every other
configuration is admitted, the defaults among them. -/
def Obligations.ConfigurationsWithoutMeaningAreRefused : Prop :=
  (∀ s : State,
    (s.params.handle.live = false ∨ s.params.handle.instances ≠ 1 ∨ s.params.handle.otherUsers ≠ 0) →
    ∃ r, step s = .refused r) ∧
  (∀ s : State,
    (s.params.opcWrite = 0x03 ∨ (∃ n, s.params.maxLen = some n ∧ n < 4) ∨ s.params.nReq = 0 ∨
      s.params.handle.wordBits ≠ 8) →
    ∃ r, step s = .refused r) ∧
  (∀ p : Params, p.opcWrite ≠ 0x03 → (∀ n, p.maxLen = some n → 4 ≤ n) → 1 ≤ p.nReq → p.handle.live = true →
    p.handle.instances = 1 → p.handle.otherUsers = 0 → p.handle.wordBits = 8 → admission p = none) ∧
  admission Params.default = none

/-! ## Requesters and the primitive -/

/-- R13, R29, R137: a requester that is not blocked puts its call into its own slot and nothing else changes; one that is blocked
is refused, by the model's choice for a broken duty (log entry 9). -/
def Obligations.RequesterFillsItsOwnSlot : Prop :=
  (∀ (s : State) (r : Nat) (i : Instr), r < s.ports.length → s.pendAt r = none → s.rspAt r = none →
    (s.phase = .idle ∨ s.rid ≠ r) → i.expressible s.params = true →
    ∃ t, presentMove r i s = .next t ∧ t.pendAt r = some i ∧ (∀ q, q ≠ r → t.pendAt q = s.pendAt q) ∧
      (∀ q, t.rspAt q = s.rspAt q) ∧ t.phase = s.phase ∧ t.latch = s.latch ∧ t.rid = s.rid ∧ t.span = s.span ∧
      t.spanResult = s.spanResult ∧ SameSurroundings s t) ∧
  (∀ (s : State) (r : Nat) (i : Instr), r < s.ports.length →
    (s.pendAt r ≠ none ∨ s.rspAt r ≠ none ∨ (s.phase = .xfer ∧ s.rid = r)) →
    presentMove r i s = .refused .requesterBlocked)

/-- R82, R36: a requester that changes its payload buffer can change only the write that still waits in its slot; the latch, the
span and every other slot stay, so an accepted request is never changed. A read that waits there has no payload and stays, and
a write gets the new bytes: the spec's decision D14, in the model's form of it (log entry 20). -/
def Obligations.AcceptedPayloadIsASnapshot : Prop :=
  ∀ (s t : State) (r : Nat) (data : List Byte), rewriteMove r data s = .next t →
    t.latch = s.latch ∧ t.span = s.span ∧ t.phase = s.phase ∧ t.rid = s.rid ∧ t.spanResult = s.spanResult ∧
      SameSurroundings s t ∧ (∀ q, t.rspAt q = s.rspAt q) ∧ (∀ q, q ≠ r → t.pendAt q = s.pendAt q) ∧
      (s.pendAt r = none → t = s) ∧
      (∀ addr len, s.pendAt r = some (.readInc addr len) ∨ s.pendAt r = some (.readDec addr len) → t = s) ∧
      (s.pendAt r = some .probe → t = s) ∧
      (∀ addr old, s.pendAt r = some (.writeInc addr old) →
        data.length = old.length ∧ t.pendAt r = some (.writeInc addr data)) ∧
      (∀ addr old, s.pendAt r = some (.writeDec addr old) →
        data.length = old.length ∧ t.pendAt r = some (.writeDec addr data))

/-- R13, R32: a requester takes its response off its own channel, and nothing else changes. -/
def Obligations.RequesterTakesItsResponse : Prop :=
  ∀ (s : State) (r : Nat), ∃ t, takeMove r s = .next t ∧ t.rspAt r = none ∧ (∀ q, q ≠ r → t.rspAt q = s.rspAt q) ∧
    (∀ q, t.pendAt q = s.pendAt q) ∧ t.phase = s.phase ∧ t.latch = s.latch ∧ t.rid = s.rid ∧ t.span = s.span ∧
    t.spanResult = s.spanResult ∧ SameSurroundings s t

/-- R15, R34, R103: in a state that meets the invariant the primitive may answer the span that stands on SPAN with any bytes of the
right number or with any code of IOCODE; the answer crosses to SPAN_RESULT unchanged and nothing else changes. -/
def Obligations.PrimitiveMayAnswerAnything : Prop :=
  ∀ (s : State) (sp : Span) (a : Answer), s.Inv → admission s.params = none → s.span = some sp →
    (∀ rx, a = .ok rx → rx.length = (if s.latch.op = .read then s.latch.len else 0)) →
    (∀ code, a = .err code → s.params.admitsCode code = true) →
    ∃ t, answerMove a s = .next t ∧ t.span = none ∧ t.spanResult = some a ∧ t.phase = s.phase ∧ t.latch = s.latch ∧
      t.rid = s.rid ∧ t.ports = s.ports ∧ SameSurroundings s t

/-- R79, R148: on the line to the peripheral a write's frame is the header and the payload, a read's the header and `len` bytes RTF
gives no value. On the line back, under an answer `Ok(rx)` that fits, come 3 bytes that are ignored and then, for a read, the bytes
`rx` in order, which are the `rdata` of its response; for a write, `len` bytes that are ignored. The frame is `8 * (3 + len)`
bits. -/
def Obligations.WireViewOfAFrame : Prop :=
  ∀ (p : Params) (req : Request), req.consistent = true →
    (req.op = .write → wireOut (spanOf p req) = (hdr p .write req.mode req.addr ++ req.wdata).map some) ∧
    (req.op = .read →
      wireOut (spanOf p req) = (hdr p .read req.mode req.addr).map some ++ List.replicate req.len none) ∧
    (∀ rx, req.op = .read → (Answer.ok rx).fits p (spanOf p req) = true →
      wireIn (spanOf p req) (.ok rx) = some (List.replicate 3 none ++ rx.map some) ∧ rx.length = req.len ∧
      (responseTo req.op (.ok rx)).rdata = some rx) ∧
    (∀ rx, req.op = .write → (Answer.ok rx).fits p (spanOf p req) = true →
      wireIn (spanOf p req) (.ok rx) = some (List.replicate 3 none ++ List.replicate req.len none) ∧
      (responseTo req.op (.ok rx)).rdata = none) ∧
    frameBits (spanOf p req) = 8 * (3 + req.len)

/-! ## The reference mock (test equipment of 95_test_vectors.md section 4) -/

/-- The mock's memory: a write is read back at its own address, leaves every other location alone, and keeps the canonical
form. -/
def Obligations.MockBurstWriteIsReadBack : Prop :=
  ∀ (m : List Host.Cell) (mode : AddressMode) (a : Nat) (data : List Byte), CellsWf m →
    burstInside mode a data.length = true →
    CellsWf (writeBurst m mode a 0 data) ∧
    readBurst (writeBurst m mode a 0 data) mode a 0 data.length = data ∧
    ∀ b, (∀ i, i < data.length → b ≠ burstAddress mode a i) →
      readCell (writeBurst m mode a 0 data) b = readCell m b

/-- 95_test_vectors.md P2 for every operand: through the mock with no fault scheduled, WRITE and then READ in the same mode at the same
address returns the bytes written, for a burst inside the space and every `OPC_WRITE` other than 0x03. The mock is the named
oracle (R103). -/
def Obligations.MockWriteThenReadReturnsTheData : Prop :=
  ∀ (p : Params) (m : Mock) (mode : AddressMode) (addr : RegisterAddress) (data : List Byte),
    p.opcWrite ≠ 0x03 → CellsWf m.mem → m.plan = [] → addr ≤ 0x3FFF → data ≠ [] →
    burstInside mode addr.toNat data.length = true →
    ∃ m₁ m₂, transactMock p (writeRequest mode addr data) m = some (.okDone, m₁) ∧
      transactMock p (readRequest mode addr data.length) m₁ = some (.okData data, m₂) ∧
      m₂.mem = m₁.mem ∧ m₂.history.length = m.history.length + 2

/-! ## The two stuck forms -/

/-- R132 (a), R140: a transaction in flight without an answer, and a pending request in IDLE, may each last for any number of
steps, and no state with either is a final one. The schedule is COMPLETE over and over, which is not possible and changes
nothing (log entries 1 and 9). -/
def Obligations.StuckFormsLastAndAreNotFinal : Prop :=
  (∀ (n : Nat) (s : State) (rest : List Move), admission s.params = none → s.agenda = List.replicate n .complete ++ rest →
    (s.awaitingAnswer = true → s.unansweredFor n) ∧
    (∀ r, (s.phase = .idle ∨ s.awaitingAnswer = true) → s.awaitingAcceptance r = true → s.unacceptedFor r n)) ∧
  (∀ s : State, s.awaitingAnswer = true → s.quiescent = false) ∧
  (∀ (s : State) (r : Nat), s.awaitingAcceptance r = true → s.quiescent = false)

/-- R132 (a), R81, R83: however many moves the agents make, those that serve other requesters among them, a request that waits in
slot `r` waits on while none of the moves is ACCEPT(r) or a reset. The schedule is the model's own (log entry 1), and the reset
the spec's decision D12 (log entry 18). -/
def Obligations.PendingRequestWaitsForItsAccept : Prop :=
  ∀ (ms rest : List Move) (s t : State) (r : Nat), s.agenda = ms ++ rest → Move.accept r ∉ ms → Move.reset ∉ ms →
    s.awaitingAcceptance r = true → Host.Core.run core ms.length s = .next t →
    t.awaitingAcceptance r = true ∧ t.quiescent = false

/-! ## IOCODE -/

/-- D10, R7, R92: IOCODE is an argument of the model, and RTF only copies a code. Whatever IOCODE is put in the place of the one a state
has, with a code of the new one for each code of the old, two codes going to one included, every step of the state is a step of the
renamed state, to the renamed next state. The agenda is the model's own (log entry 1); that a code is a token is its form of IOCODE (log
entry 7). -/
def Obligations.FaultCodesAreOnlyCopied : Prop :=
  ∀ (s t : State) (codes : Option Nat) (f : IoCode → IoCode), s.agenda ≠ [] →
    (∀ code, s.params.admitsCode code = true → (s.params.withCodes codes).admitsCode (f code) = true) →
    step s = .next t → step (s.recode codes f) = .next (t.recode codes f)

/-- R15, D10: from a state that meets the invariant, every code on a response or on SPAN_RESULT after a step is one of IOCODE; and an
answer with any other code is refused, the model's choice for a broken duty (log entry 9). -/
def Obligations.OnlyCodesOfTheTypeAppear : Prop :=
  (∀ (s t : State), s.Inv → step s = .next t →
    (∀ r code, t.rspAt r = some (.err (.ioFailure code)) → t.params.admitsCode code = true) ∧
    (∀ code, t.spanResult = some (.err code) → t.params.admitsCode code = true)) ∧
  (∀ (s : State) (code : IoCode), s.Inv → s.span ≠ none → s.params.opcWrite ≠ 0x03 → s.params.admitsCode code = false →
    answerMove (.err code) s = .refused .unknownCode)
end

