-- ==== Sys2Proof/Laws/Decode.lean ====
section
/-!
SUPPORT. The decoder is written over the constants of Config.lean; here it is shown to read the bits that 30_encoding.md R74 names,
and the literals of R7 are shown to agree with one another and with the types.
-/

namespace Sys2Proof

open Machine

/-- `ADDR_MAX` is the largest number of `ADDR_VALID_BITS` bits (R7). -/
theorem Config.addrMax_toNat : Config.addrMax.toNat = 2 ^ Config.addrValidBits - 1 := by decide

/-- The mask of header byte 1 is the part of `ADDR_MAX` above header byte 2 (R60). -/
theorem Config.addrHiMask_eq : Config.addrHiMask = (Config.addrMax >>> Config.wordBits).setWidth 8 := by decide

/-- The two flags and the address bits fill header byte 1 without overlap (R60, R75). -/
theorem Config.headerByteOne_split : Config.flagInc + Config.flagDec + Config.addrHiMask = 0xFF ∧
    Config.flagInc ||| Config.flagDec ||| Config.addrHiMask = 0xFF := by decide

/-- A RegisterAddress has `ADDR_PORT_BITS` bits, and a byte `WORD_BITS` (R7). -/
theorem Config.widths : RegisterAddress = BitVec Config.addrPortBits ∧ Byte = BitVec Config.wordBits := ⟨rfl, rfl⟩

/-- Every header has `HDR_LEN` bytes (R7, R58). -/
@[simp] theorem length_hdr (p : Params) (op : TransferDirection) (mode : AddressMode) (addr : RegisterAddress) :
    (hdr p op mode addr).length = Config.hdrLen := rfl

/-- Every span has `SEG_PER_SPAN` segments (R7, R68). -/
@[simp] theorem Machine.length_spanOf (p : Params) (req : Request) : (spanOf p req).length = Config.segPerSpan := rfl

/-- The decoded address as a number: 6 bits of header byte 1 above header byte 2 (R74). -/
theorem decodeAddr_toNat (b1 b2 : Byte) : (decodeAddr b1 b2).toNat = b1.toNat % 64 * 256 + b2.toNat := by
  have hm : (b1 &&& Config.addrHiMask).toNat = b1.toNat % 64 := Nat.and_two_pow_sub_one_eq_mod _ 6
  have hlt : b1.toNat % 64 < 64 := Nat.mod_lt _ (by decide)
  rw [decodeAddr, BitVec.toNat_or, BitVec.toNat_shiftLeft, BitVec.toNat_setWidth, BitVec.toNat_setWidth, hm,
    Nat.mod_eq_of_lt (by omega : b1.toNat % 64 < 2 ^ 16), Nat.mod_eq_of_lt (by omega : b2.toNat < 2 ^ 16),
    Config.wordBits, Nat.mod_eq_of_lt (by rw [Nat.shiftLeft_eq]; omega), ← Nat.shiftLeft_add_eq_or_of_lt b2.isLt,
    Nat.shiftLeft_eq]

/-- The decoded address is `zext_16(H[13:0])` (R74). -/
theorem decodeAddr_eq_extract (b1 b2 : Byte) : decodeAddr b1 b2 = (b1.extractLsb' 0 6 ++ b2).setWidth 16 := by
  have ha : (b1.extractLsb' 0 6 ++ b2).toNat = b1.toNat % 64 * 256 + b2.toNat := by
    rw [BitVec.toNat_append, ← Nat.shiftLeft_add_eq_or_of_lt b2.isLt, Nat.shiftLeft_eq, BitVec.extractLsb'_toNat]
    rfl
  have hlt : b1.toNat % 64 < 64 := Nat.mod_lt _ (by decide)
  apply BitVec.eq_of_toNat_eq
  rw [decodeAddr_toNat, BitVec.toNat_setWidth, ha, Nat.mod_eq_of_lt (a := b1.toNat % 64 * 256 + b2.toNat) (by omega)]

/-- The decoded mode is read from `H[15:14]`, that is from bits 7 and 6 of header byte 1 (R74). -/
theorem decodeMode_eq_extract (b1 : Byte) : decodeMode b1 =
    match b1.extractLsb' 6 2 with
    | 0b01#2 => .ok .increment
    | 0b10#2 => .ok .decrement
    | 0b00#2 => .bad .noFlag
    | _ => .bad .bothFlags := by
  obtain ⟨b1⟩ := b1
  revert b1
  decide +kernel

end Sys2Proof
end

