-- ==== Sys2Proof/Laws/State.lean ====
section
/-!
SUPPORT. One lemma for each field of the state and each named update of it, so that no later proof unfolds a record update; the
port updates' own `ports` equations are not simp lemmas, because Laws/Ops.lean says what they do to one port.
-/

namespace Sys2Proof.Machine

@[simp] theorem State.fillSlot_params (s : State) (r : Nat) (i : Instr) :
    (s.fillSlot r i).params = s.params := rfl

@[simp] theorem State.fillSlot_phase (s : State) (r : Nat) (i : Instr) :
    (s.fillSlot r i).phase = s.phase := rfl

@[simp] theorem State.fillSlot_latch (s : State) (r : Nat) (i : Instr) :
    (s.fillSlot r i).latch = s.latch := rfl

@[simp] theorem State.fillSlot_rid (s : State) (r : Nat) (i : Instr) :
    (s.fillSlot r i).rid = s.rid := rfl

theorem State.fillSlot_ports (s : State) (r : Nat) (i : Instr) :
    (s.fillSlot r i).ports = s.ports.modify r fun q => { q with pend := some i } := rfl

@[simp] theorem State.fillSlot_span (s : State) (r : Nat) (i : Instr) :
    (s.fillSlot r i).span = s.span := rfl

@[simp] theorem State.fillSlot_spanResult (s : State) (r : Nat) (i : Instr) :
    (s.fillSlot r i).spanResult = s.spanResult := rfl

@[simp] theorem State.fillSlot_sel (s : State) (r : Nat) (i : Instr) :
    (s.fillSlot r i).sel = s.sel := rfl

@[simp] theorem State.fillSlot_agenda (s : State) (r : Nat) (i : Instr) :
    (s.fillSlot r i).agenda = s.agenda := rfl

@[simp] theorem State.fillSlot_tick (s : State) (r : Nat) (i : Instr) :
    (s.fillSlot r i).tick = s.tick := rfl

@[simp] theorem State.emptySlot_params (s : State) (r : Nat) :
    (s.emptySlot r).params = s.params := rfl

@[simp] theorem State.emptySlot_phase (s : State) (r : Nat) :
    (s.emptySlot r).phase = s.phase := rfl

@[simp] theorem State.emptySlot_latch (s : State) (r : Nat) :
    (s.emptySlot r).latch = s.latch := rfl

@[simp] theorem State.emptySlot_rid (s : State) (r : Nat) :
    (s.emptySlot r).rid = s.rid := rfl

theorem State.emptySlot_ports (s : State) (r : Nat) :
    (s.emptySlot r).ports = s.ports.modify r fun q => { q with pend := none } := rfl

@[simp] theorem State.emptySlot_span (s : State) (r : Nat) :
    (s.emptySlot r).span = s.span := rfl

@[simp] theorem State.emptySlot_spanResult (s : State) (r : Nat) :
    (s.emptySlot r).spanResult = s.spanResult := rfl

@[simp] theorem State.emptySlot_sel (s : State) (r : Nat) :
    (s.emptySlot r).sel = s.sel := rfl

@[simp] theorem State.emptySlot_agenda (s : State) (r : Nat) :
    (s.emptySlot r).agenda = s.agenda := rfl

@[simp] theorem State.emptySlot_tick (s : State) (r : Nat) :
    (s.emptySlot r).tick = s.tick := rfl

@[simp] theorem State.putResponse_params (s : State) (r : Nat) (x : Response) :
    (s.putResponse r x).params = s.params := rfl

@[simp] theorem State.putResponse_phase (s : State) (r : Nat) (x : Response) :
    (s.putResponse r x).phase = s.phase := rfl

@[simp] theorem State.putResponse_latch (s : State) (r : Nat) (x : Response) :
    (s.putResponse r x).latch = s.latch := rfl

@[simp] theorem State.putResponse_rid (s : State) (r : Nat) (x : Response) :
    (s.putResponse r x).rid = s.rid := rfl

theorem State.putResponse_ports (s : State) (r : Nat) (x : Response) :
    (s.putResponse r x).ports = s.ports.modify r fun q => { q with rsp := some x } := rfl

@[simp] theorem State.putResponse_span (s : State) (r : Nat) (x : Response) :
    (s.putResponse r x).span = s.span := rfl

@[simp] theorem State.putResponse_spanResult (s : State) (r : Nat) (x : Response) :
    (s.putResponse r x).spanResult = s.spanResult := rfl

@[simp] theorem State.putResponse_sel (s : State) (r : Nat) (x : Response) :
    (s.putResponse r x).sel = s.sel := rfl

@[simp] theorem State.putResponse_agenda (s : State) (r : Nat) (x : Response) :
    (s.putResponse r x).agenda = s.agenda := rfl

@[simp] theorem State.putResponse_tick (s : State) (r : Nat) (x : Response) :
    (s.putResponse r x).tick = s.tick := rfl

@[simp] theorem State.dropResponse_params (s : State) (r : Nat) :
    (s.dropResponse r).params = s.params := rfl

@[simp] theorem State.dropResponse_phase (s : State) (r : Nat) :
    (s.dropResponse r).phase = s.phase := rfl

@[simp] theorem State.dropResponse_latch (s : State) (r : Nat) :
    (s.dropResponse r).latch = s.latch := rfl

@[simp] theorem State.dropResponse_rid (s : State) (r : Nat) :
    (s.dropResponse r).rid = s.rid := rfl

theorem State.dropResponse_ports (s : State) (r : Nat) :
    (s.dropResponse r).ports = s.ports.modify r fun q => { q with rsp := none } := rfl

@[simp] theorem State.dropResponse_span (s : State) (r : Nat) :
    (s.dropResponse r).span = s.span := rfl

@[simp] theorem State.dropResponse_spanResult (s : State) (r : Nat) :
    (s.dropResponse r).spanResult = s.spanResult := rfl

@[simp] theorem State.dropResponse_sel (s : State) (r : Nat) :
    (s.dropResponse r).sel = s.sel := rfl

@[simp] theorem State.dropResponse_agenda (s : State) (r : Nat) :
    (s.dropResponse r).agenda = s.agenda := rfl

@[simp] theorem State.dropResponse_tick (s : State) (r : Nat) :
    (s.dropResponse r).tick = s.tick := rfl

@[simp] theorem State.select_params (s : State) (r : Nat) :
    (s.select r).params = s.params := rfl

@[simp] theorem State.select_phase (s : State) (r : Nat) :
    (s.select r).phase = s.phase := rfl

@[simp] theorem State.select_latch (s : State) (r : Nat) :
    (s.select r).latch = s.latch := rfl

@[simp] theorem State.select_rid (s : State) (r : Nat) :
    (s.select r).rid = s.rid := rfl

@[simp] theorem State.select_ports (s : State) (r : Nat) :
    (s.select r).ports = s.ports := rfl

@[simp] theorem State.select_span (s : State) (r : Nat) :
    (s.select r).span = s.span := rfl

@[simp] theorem State.select_spanResult (s : State) (r : Nat) :
    (s.select r).spanResult = s.spanResult := rfl

@[simp] theorem State.select_sel (s : State) (r : Nat) :
    (s.select r).sel = r := rfl

@[simp] theorem State.select_agenda (s : State) (r : Nat) :
    (s.select r).agenda = s.agenda := rfl

@[simp] theorem State.select_tick (s : State) (r : Nat) :
    (s.select r).tick = s.tick := rfl

@[simp] theorem State.putAnswer_params (s : State) (a : Answer) :
    (s.putAnswer a).params = s.params := rfl

@[simp] theorem State.putAnswer_phase (s : State) (a : Answer) :
    (s.putAnswer a).phase = s.phase := rfl

@[simp] theorem State.putAnswer_latch (s : State) (a : Answer) :
    (s.putAnswer a).latch = s.latch := rfl

@[simp] theorem State.putAnswer_rid (s : State) (a : Answer) :
    (s.putAnswer a).rid = s.rid := rfl

@[simp] theorem State.putAnswer_ports (s : State) (a : Answer) :
    (s.putAnswer a).ports = s.ports := rfl

@[simp] theorem State.putAnswer_span (s : State) (a : Answer) :
    (s.putAnswer a).span = none := rfl

@[simp] theorem State.putAnswer_spanResult (s : State) (a : Answer) :
    (s.putAnswer a).spanResult = some a := rfl

@[simp] theorem State.putAnswer_sel (s : State) (a : Answer) :
    (s.putAnswer a).sel = s.sel := rfl

@[simp] theorem State.putAnswer_agenda (s : State) (a : Answer) :
    (s.putAnswer a).agenda = s.agenda := rfl

@[simp] theorem State.putAnswer_tick (s : State) (a : Answer) :
    (s.putAnswer a).tick = s.tick := rfl

@[simp] theorem State.takeAnswer_params (s : State) :
    s.takeAnswer.params = s.params := rfl

@[simp] theorem State.takeAnswer_phase (s : State) :
    s.takeAnswer.phase = s.phase := rfl

@[simp] theorem State.takeAnswer_latch (s : State) :
    s.takeAnswer.latch = s.latch := rfl

@[simp] theorem State.takeAnswer_rid (s : State) :
    s.takeAnswer.rid = s.rid := rfl

@[simp] theorem State.takeAnswer_ports (s : State) :
    s.takeAnswer.ports = s.ports := rfl

@[simp] theorem State.takeAnswer_span (s : State) :
    s.takeAnswer.span = s.span := rfl

@[simp] theorem State.takeAnswer_spanResult (s : State) :
    s.takeAnswer.spanResult = none := rfl

@[simp] theorem State.takeAnswer_sel (s : State) :
    s.takeAnswer.sel = s.sel := rfl

@[simp] theorem State.takeAnswer_agenda (s : State) :
    s.takeAnswer.agenda = s.agenda := rfl

@[simp] theorem State.takeAnswer_tick (s : State) :
    s.takeAnswer.tick = s.tick := rfl

@[simp] theorem respond_params (r : Nat) (x : Response) (s : State) :
    (respond r x s).params = s.params := rfl

@[simp] theorem respond_phase (r : Nat) (x : Response) (s : State) :
    (respond r x s).phase = .idle := rfl

@[simp] theorem respond_latch (r : Nat) (x : Response) (s : State) :
    (respond r x s).latch = s.latch := rfl

@[simp] theorem respond_rid (r : Nat) (x : Response) (s : State) :
    (respond r x s).rid = s.rid := rfl

theorem respond_ports (r : Nat) (x : Response) (s : State) :
    (respond r x s).ports = (s.putResponse r x).ports := rfl

@[simp] theorem respond_span (r : Nat) (x : Response) (s : State) :
    (respond r x s).span = s.span := rfl

@[simp] theorem respond_spanResult (r : Nat) (x : Response) (s : State) :
    (respond r x s).spanResult = s.spanResult := rfl

@[simp] theorem respond_sel (r : Nat) (x : Response) (s : State) :
    (respond r x s).sel = s.sel := rfl

@[simp] theorem respond_agenda (r : Nat) (x : Response) (s : State) :
    (respond r x s).agenda = s.agenda := rfl

@[simp] theorem respond_tick (r : Nat) (x : Response) (s : State) :
    (respond r x s).tick = s.tick := rfl

@[simp] theorem raiseError_params (r : Nat) (e : TransportError) (s : State) :
    (raiseError r e s).params = s.params := rfl

@[simp] theorem raiseError_phase (r : Nat) (e : TransportError) (s : State) :
    (raiseError r e s).phase = .idle := rfl

@[simp] theorem raiseError_latch (r : Nat) (e : TransportError) (s : State) :
    (raiseError r e s).latch = s.latch := rfl

@[simp] theorem raiseError_rid (r : Nat) (e : TransportError) (s : State) :
    (raiseError r e s).rid = s.rid := rfl

theorem raiseError_ports (r : Nat) (e : TransportError) (s : State) :
    (raiseError r e s).ports = (s.putResponse r (.err e)).ports := rfl

@[simp] theorem raiseError_span (r : Nat) (e : TransportError) (s : State) :
    (raiseError r e s).span = s.span := rfl

@[simp] theorem raiseError_spanResult (r : Nat) (e : TransportError) (s : State) :
    (raiseError r e s).spanResult = s.spanResult := rfl

@[simp] theorem raiseError_sel (r : Nat) (e : TransportError) (s : State) :
    (raiseError r e s).sel = s.sel := rfl

@[simp] theorem raiseError_agenda (r : Nat) (e : TransportError) (s : State) :
    (raiseError r e s).agenda = s.agenda := rfl

@[simp] theorem raiseError_tick (r : Nat) (e : TransportError) (s : State) :
    (raiseError r e s).tick = s.tick := rfl

@[simp] theorem issue_params (r : Nat) (req : Request) (s : State) :
    (issue r req s).params = s.params := rfl

@[simp] theorem issue_phase (r : Nat) (req : Request) (s : State) :
    (issue r req s).phase = .xfer := rfl

@[simp] theorem issue_latch (r : Nat) (req : Request) (s : State) :
    (issue r req s).latch = req.latched s.params := rfl

@[simp] theorem issue_rid (r : Nat) (req : Request) (s : State) :
    (issue r req s).rid = r := rfl

@[simp] theorem issue_ports (r : Nat) (req : Request) (s : State) :
    (issue r req s).ports = s.ports := rfl

@[simp] theorem issue_span (r : Nat) (req : Request) (s : State) :
    (issue r req s).span = some (spanOf s.params (req.latched s.params)) := rfl

@[simp] theorem issue_spanResult (r : Nat) (req : Request) (s : State) :
    (issue r req s).spanResult = s.spanResult := rfl

@[simp] theorem issue_sel (r : Nat) (req : Request) (s : State) :
    (issue r req s).sel = s.sel := rfl

@[simp] theorem issue_agenda (r : Nat) (req : Request) (s : State) :
    (issue r req s).agenda = s.agenda := rfl

@[simp] theorem issue_tick (r : Nat) (req : Request) (s : State) :
    (issue r req s).tick = s.tick := rfl

@[simp] theorem State.advance_params (s : State) : s.advance.params = s.params := by
  unfold State.advance; split <;> rfl

@[simp] theorem State.advance_phase (s : State) : s.advance.phase = s.phase := by
  unfold State.advance; split <;> rfl

@[simp] theorem State.advance_latch (s : State) : s.advance.latch = s.latch := by
  unfold State.advance; split <;> rfl

@[simp] theorem State.advance_rid (s : State) : s.advance.rid = s.rid := by
  unfold State.advance; split <;> rfl

@[simp] theorem State.advance_ports (s : State) : s.advance.ports = s.ports := by
  unfold State.advance; split <;> rfl

@[simp] theorem State.advance_span (s : State) : s.advance.span = s.span := by
  unfold State.advance; split <;> rfl

@[simp] theorem State.advance_spanResult (s : State) : s.advance.spanResult = s.spanResult := by
  unfold State.advance; split <;> rfl

@[simp] theorem State.advance_sel (s : State) : s.advance.sel = s.sel := by
  unfold State.advance; split <;> rfl

@[simp] theorem State.construct_params (p : Params) (ms : List Move) (n : Nat) :
    (State.construct p ms n).params = p := rfl

@[simp] theorem State.construct_phase (p : Params) (ms : List Move) (n : Nat) :
    (State.construct p ms n).phase = .idle := rfl

@[simp] theorem State.construct_latch (p : Params) (ms : List Move) (n : Nat) :
    (State.construct p ms n).latch = Request.blank := rfl

@[simp] theorem State.construct_rid (p : Params) (ms : List Move) (n : Nat) :
    (State.construct p ms n).rid = 0 := rfl

@[simp] theorem State.construct_span (p : Params) (ms : List Move) (n : Nat) :
    (State.construct p ms n).span = none := rfl

@[simp] theorem State.construct_spanResult (p : Params) (ms : List Move) (n : Nat) :
    (State.construct p ms n).spanResult = none := rfl

@[simp] theorem State.construct_sel (p : Params) (ms : List Move) (n : Nat) :
    (State.construct p ms n).sel = 0 := rfl

@[simp] theorem State.construct_agenda (p : Params) (ms : List Move) (n : Nat) :
    (State.construct p ms n).agenda = ms := rfl

@[simp] theorem State.construct_tick (p : Params) (ms : List Move) (n : Nat) :
    (State.construct p ms n).tick = n := rfl

@[simp] theorem State.construct_ports (p : Params) (ms : List Move) (n : Nat) :
    (State.construct p ms n).ports = List.replicate p.nReq Port.empty := rfl

end Sys2Proof.Machine
end

