-- ==== Sys2Proof/Laws/Ops.lean ====
section
/-!
SUPPORT. What each shared operation does, said once: the port operations on one port, the request of a call, validation, and RTF's
two steps. Later proofs cite these lemmas instead of unfolding the operations.
-/

namespace Sys2Proof.Machine

/-! ## Ports -/

theorem bind_getElem?_modify {α : Type} (ports : List Port) (r q : Nat) (f : Port → Port) (g : Port → Option α) :
    ((ports.modify r f)[q]?).bind g = if r = q then (ports[q]?).bind (fun x => g (f x)) else (ports[q]?).bind g := by
  rw [List.getElem?_modify]
  by_cases h : r = q
  · simp only [h, if_true]; cases ports[q]? <;> rfl
  · simp only [h, if_false]; cases ports[q]? <;> rfl

theorem State.pendAt_fillSlot (s : State) (r q : Nat) (i : Instr) :
    (s.fillSlot r i).pendAt q = if r = q ∧ q < s.ports.length then some i else s.pendAt q := by
  simp only [State.pendAt, State.fillSlot_ports, bind_getElem?_modify]
  by_cases h : r = q
  · by_cases hq : q < s.ports.length
    · simp [h, hq]
    · simp [h, hq]
  · simp [h]

/-- Filling a slot with the call it holds changes nothing. -/
theorem State.fillSlot_eq_self {s : State} {r : Nat} {i : Instr} (h : s.pendAt r = some i) : s.fillSlot r i = s := by
  have hm : s.ports.modify r (fun q => { q with pend := some i }) = s.ports := by
    refine List.ext_getElem? fun k => ?_
    rw [List.getElem?_modify]
    by_cases hk : r = k
    · subst hk
      cases hq : s.ports[r]? with
      | none => rfl
      | some q =>
        have hp : q.pend = some i := by simpa [State.pendAt, hq] using h
        simp [← hp]
    · cases s.ports[k]? <;> simp [hk]
  simp only [State.fillSlot, hm]

@[simp] theorem State.rspAt_fillSlot (s : State) (r q : Nat) (i : Instr) :
    (s.fillSlot r i).rspAt q = s.rspAt q := by
  simp only [State.rspAt, State.fillSlot_ports, bind_getElem?_modify]
  split <;> rfl

theorem State.pendAt_emptySlot (s : State) (r q : Nat) :
    (s.emptySlot r).pendAt q = if r = q then none else s.pendAt q := by
  simp only [State.pendAt, State.emptySlot_ports, bind_getElem?_modify]
  split
  · cases s.ports[q]? <;> rfl
  · rfl

@[simp] theorem State.rspAt_emptySlot (s : State) (r q : Nat) :
    (s.emptySlot r).rspAt q = s.rspAt q := by
  simp only [State.rspAt, State.emptySlot_ports, bind_getElem?_modify]
  split <;> rfl

@[simp] theorem State.pendAt_putResponse (s : State) (r q : Nat) (x : Response) :
    (s.putResponse r x).pendAt q = s.pendAt q := by
  simp only [State.pendAt, State.putResponse_ports, bind_getElem?_modify]
  split <;> rfl

theorem State.rspAt_putResponse (s : State) (r q : Nat) (x : Response) :
    (s.putResponse r x).rspAt q = if r = q ∧ q < s.ports.length then some x else s.rspAt q := by
  simp only [State.rspAt, State.putResponse_ports, bind_getElem?_modify]
  by_cases h : r = q
  · by_cases hq : q < s.ports.length
    · simp [h, hq]
    · simp [h, hq]
  · simp [h]

@[simp] theorem State.pendAt_dropResponse (s : State) (r q : Nat) :
    (s.dropResponse r).pendAt q = s.pendAt q := by
  simp only [State.pendAt, State.dropResponse_ports, bind_getElem?_modify]
  split <;> rfl

theorem State.rspAt_dropResponse (s : State) (r q : Nat) :
    (s.dropResponse r).rspAt q = if r = q then none else s.rspAt q := by
  simp only [State.rspAt, State.dropResponse_ports, bind_getElem?_modify]
  split
  · cases s.ports[q]? <;> rfl
  · rfl

/-- A state's ports are read through `ports` alone. -/
theorem State.pendAt_congr {s t : State} (h : s.ports = t.ports) (q : Nat) : s.pendAt q = t.pendAt q := by
  simp only [State.pendAt, h]

theorem State.rspAt_congr {s t : State} (h : s.ports = t.ports) (q : Nat) : s.rspAt q = t.rspAt q := by
  simp only [State.rspAt, h]

@[simp] theorem State.pendAt_select (s : State) (r q : Nat) : (s.select r).pendAt q = s.pendAt q := rfl
@[simp] theorem State.rspAt_select (s : State) (r q : Nat) : (s.select r).rspAt q = s.rspAt q := rfl

@[simp] theorem State.pendAt_putAnswer (s : State) (a : Answer) (q : Nat) : (s.putAnswer a).pendAt q = s.pendAt q := rfl
@[simp] theorem State.rspAt_putAnswer (s : State) (a : Answer) (q : Nat) : (s.putAnswer a).rspAt q = s.rspAt q := rfl
@[simp] theorem State.pendAt_takeAnswer (s : State) (q : Nat) : s.takeAnswer.pendAt q = s.pendAt q := rfl
@[simp] theorem State.rspAt_takeAnswer (s : State) (q : Nat) : s.takeAnswer.rspAt q = s.rspAt q := rfl

@[simp] theorem State.pendAt_advance (s : State) (q : Nat) : s.advance.pendAt q = s.pendAt q :=
  State.pendAt_congr s.advance_ports q

@[simp] theorem State.rspAt_advance (s : State) (q : Nat) : s.advance.rspAt q = s.rspAt q :=
  State.rspAt_congr s.advance_ports q

@[simp] theorem pendAt_respond (r q : Nat) (x : Response) (s : State) : (respond r x s).pendAt q = s.pendAt q :=
  State.pendAt_putResponse s r q x

theorem rspAt_respond (r q : Nat) (x : Response) (s : State) :
    (respond r x s).rspAt q = if r = q ∧ q < s.ports.length then some x else s.rspAt q :=
  State.rspAt_putResponse s r q x

@[simp] theorem pendAt_raiseError (r q : Nat) (e : TransportError) (s : State) :
    (raiseError r e s).pendAt q = s.pendAt q :=
  State.pendAt_putResponse s r q (.err e)

theorem rspAt_raiseError (r q : Nat) (e : TransportError) (s : State) :
    (raiseError r e s).rspAt q = if r = q ∧ q < s.ports.length then some (.err e) else s.rspAt q :=
  State.rspAt_putResponse s r q (.err e)

@[simp] theorem pendAt_issue (r q : Nat) (req : Request) (s : State) : (issue r req s).pendAt q = s.pendAt q := rfl
@[simp] theorem rspAt_issue (r q : Nat) (req : Request) (s : State) : (issue r req s).rspAt q = s.rspAt q := rfl

theorem State.pendAt_construct (p : Params) (ms : List Move) (n q : Nat) :
    (State.construct p ms n).pendAt q = none := by
  simp only [State.pendAt, State.construct_ports, List.getElem?_replicate]
  split <;> rfl

theorem State.rspAt_construct (p : Params) (ms : List Move) (n q : Nat) :
    (State.construct p ms n).rspAt q = none := by
  simp only [State.rspAt, State.construct_ports, List.getElem?_replicate]
  split <;> rfl

@[simp] theorem State.length_fillSlot (s : State) (r : Nat) (i : Instr) :
    (s.fillSlot r i).ports.length = s.ports.length := by
  simp [State.fillSlot_ports]

@[simp] theorem State.length_emptySlot (s : State) (r : Nat) : (s.emptySlot r).ports.length = s.ports.length := by
  simp [State.emptySlot_ports]

@[simp] theorem State.length_putResponse (s : State) (r : Nat) (x : Response) :
    (s.putResponse r x).ports.length = s.ports.length := by
  simp [State.putResponse_ports]

@[simp] theorem State.length_dropResponse (s : State) (r : Nat) :
    (s.dropResponse r).ports.length = s.ports.length := by
  simp [State.dropResponse_ports]

/-- A filled slot belongs to a requester. -/
theorem State.lt_of_pendAt {s : State} {r : Nat} {i : Instr} (h : s.pendAt r = some i) : r < s.ports.length := by
  by_contra hr
  simp [State.pendAt, List.getElem?_eq_none (Nat.le_of_not_lt hr)] at h

/-! ## Validation -/

/-- When validation passes and what it passes (R84, R85). -/
theorem validate_eq_none {p : Params} {req : Request} :
    validate p req = none ↔ req.len ≠ 0 ∧ ¬ (Config.addrMax < req.addr ∧ p.addrPolicy = .reject) := by
  unfold validate
  by_cases h : req.len = 0
  · simp [h]
  · by_cases h' : Config.addrMax < req.addr ∧ p.addrPolicy = .reject <;> simp [h, h']

/-- The address of a request that passed is valid (R85). -/
theorem effectiveAddress_le {p : Params} {req : Request} (h : validate p req = none) :
    effectiveAddress p req.addr ≤ Config.addrMax := by
  have hv := (validate_eq_none.mp h).2
  unfold effectiveAddress
  split
  · have := @Nat.and_le_right req.addr.toNat Config.addrMax.toNat
    simpa [BitVec.le_def] using this
  · rename_i hm
    by_contra hlt
    have hlt : Config.addrMax < req.addr := by simpa [BitVec.not_le] using hlt
    cases hp : p.addrPolicy
    · exact hv ⟨hlt, hp⟩
    · exact hm ⟨hlt, hp⟩

/-- Latching changes the address alone. -/
@[simp] theorem Request.latched_op (p : Params) (req : Request) : (req.latched p).op = req.op := rfl
@[simp] theorem Request.latched_mode (p : Params) (req : Request) : (req.latched p).mode = req.mode := rfl
@[simp] theorem Request.latched_len (p : Params) (req : Request) : (req.latched p).len = req.len := rfl
@[simp] theorem Request.latched_wdata (p : Params) (req : Request) : (req.latched p).wdata = req.wdata := rfl
@[simp] theorem Request.latched_addr (p : Params) (req : Request) :
    (req.latched p).addr = effectiveAddress p req.addr := rfl

/-- A request with a valid address is latched as it is. -/
theorem Request.latched_of_valid {p : Params} {req : Request} (h : req.addr ≤ Config.addrMax) : req.latched p = req := by
  have : effectiveAddress p req.addr = req.addr := by
    unfold effectiveAddress
    rw [if_neg]
    intro hc
    exact absurd hc.1 (by simpa [BitVec.not_lt] using h)
  simp [Request.latched, this]

/-! ## RTF's steps -/

/-- ACCEPT in its two cases (R86, R90). -/
theorem accept_cases (r : Nat) (req : Request) (s : State) :
    (∃ e, validate s.params req = some e ∧ accept r req s = raiseError r e (s.emptySlot r)) ∨
    (validate s.params req = none ∧ accept r req s = issue r req (s.emptySlot r)) := by
  unfold accept
  cases h : validate s.params req with
  | none => exact .inr ⟨rfl, rfl⟩
  | some e => exact .inl ⟨e, rfl, rfl⟩

/-- COMPLETE in its two cases: no answer, or the owner gets the response to it (R91, R92). -/
theorem complete_cases (s : State) :
    (s.spanResult = none ∧ complete s = s) ∨
    (∃ a, s.spanResult = some a ∧
      complete s = respond s.rid (responseTo s.latch.op a) s.takeAnswer) := by
  unfold complete
  rcases h : s.spanResult with _ | a
  · exact .inl ⟨rfl, rfl⟩
  · cases a with
    | ok rx => exact .inr ⟨_, rfl, rfl⟩
    | err code => exact .inr ⟨_, rfl, rfl⟩

/-- RTF's step in IDLE on the call that stands in the selected slot. -/
theorem transactionStep_idle {i : Instr} {req : Request} {s : State} (hp : s.phase = .idle)
    (hs : s.pendAt s.sel = some i) : transactionStep i req s = .next (accept s.sel req s) := by
  simp [transactionStep, hp, hs]

/-- RTF's step in XFER on the request in flight. -/
theorem transactionStep_xfer {i : Instr} {req : Request} {s : State} (hp : s.phase = .xfer)
    (hl : s.latch = req.latched s.params) : transactionStep i req s = .next (complete s) := by
  simp [transactionStep, hp, ← hl]

/-- All RTF's step can do: wait, accept the selected slot, or complete. -/
theorem transactionStep_cases {i : Instr} {req : Request} {s t : State} (h : transactionStep i req s = .next t) :
    t = s ∨ (s.phase = .idle ∧ s.pendAt s.sel = some i ∧ t = accept s.sel req s) ∨
    (s.phase = .xfer ∧ s.latch = req.latched s.params ∧ t = complete s) := by
  unfold transactionStep at h
  cases hp : s.phase with
  | idle =>
    simp only [hp, Host.Outcome.next.injEq] at h
    split at h
    · exact .inr (.inl ⟨rfl, ‹_›, h.symm⟩)
    · exact .inl h.symm
  | xfer =>
    simp only [hp, Host.Outcome.next.injEq] at h
    split at h
    · exact .inr (.inr ⟨rfl, ‹_›, h.symm⟩)
    · exact .inl h.symm

end Sys2Proof.Machine
end

