-- ==== Sys2Proof/Laws/Exec.lean ====
section
/-!
SUPPORT. `exec` is RTF's step on the request of the call, for every call; and the request of a call names it.
-/

namespace Sys2Proof.Machine

/-- Every meaning is RTF's step on its own request. -/
theorem exec_eq (i : Instr) (s : State) : exec i s = transactionStep i i.request s := by
  cases i <;> rfl

/-- No operation faults or is refused. -/
theorem exec_next (i : Instr) (s : State) : ∃ t, exec i s = .next t := by
  rw [exec_eq]
  unfold transactionStep
  cases s.phase <;> exact ⟨_, rfl⟩

/-- The call of a consistent request has that request (R69). -/
theorem Request.request_call {req : Request} (h : req.consistent = true) : req.call.request = req := by
  obtain ⟨op, mode, addr, len, wdata⟩ := req
  cases op <;> cases mode <;>
    simp_all [Request.consistent, Request.call, Instr.request, readRequest, writeRequest]

theorem Instr.consistent_request (i : Instr) : i.request.consistent = true := by
  cases i <;> simp [Instr.request, readRequest, writeRequest, Request.consistent]

theorem Instr.len_request (i : Instr) : i.request.len = i.byteCount := by
  cases i <;> rfl

end Sys2Proof.Machine
end

