-- ==== Sys2Proof/Laws/Mock.lean ====
section
/-!
SUPPORT. The mock's memory: a write is read back, leaves every other location alone, and keeps the canonical form.
-/

namespace Sys2Proof.Machine

theorem readCell_of_lt {m : List Host.Cell} {a : Nat} (h : ∀ c ∈ m, a < c.1) : readCell m a = 0 := by
  induction m with
  | nil => rfl
  | cons c m ih =>
    have hc : a < c.1 := h c (by simp)
    rw [readCell, if_neg (by omega)]
    exact ih fun d hd => h d (by simp [hd])

theorem readCell_consCell {m : List Host.Cell} {a : Nat} (h : ∀ c ∈ m, a < c.1) (b : Byte) (a' : Nat) :
    readCell (consCell a b m) a' = if a = a' then b else readCell m a' := by
  unfold consCell
  by_cases hb : b = 0
  · rw [if_pos hb]
    split
    · subst_vars; exact readCell_of_lt h
    · rfl
  · rw [if_neg hb]; rfl

theorem lt_of_wf_cons {c : Host.Cell} {m : List Host.Cell} (h : CellsWf (c :: m)) : ∀ d ∈ m, c.1 < d.1 :=
  (List.pairwise_cons.mp h.1).1

theorem wf_of_wf_cons {c : Host.Cell} {m : List Host.Cell} (h : CellsWf (c :: m)) : CellsWf m :=
  ⟨(List.pairwise_cons.mp h.1).2, fun d hd => h.2 d (by simp [hd])⟩

/-- A read after a write: the byte written at its own address, and what was there before at every other. -/
theorem readCell_writeCell {m : List Host.Cell} (h : CellsWf m) (a : Nat) (b : Byte) (a' : Nat) :
    readCell (writeCell m a b) a' = if a = a' then b else readCell m a' := by
  induction m with
  | nil => exact readCell_consCell (by simp) b a'
  | cons c m ih =>
    obtain ⟨k, v⟩ := c
    have hk := lt_of_wf_cons h
    simp only [writeCell]
    by_cases h1 : a < k
    · rw [if_pos h1]
      refine readCell_consCell (fun d hd => ?_) b a'
      rcases List.mem_cons.mp hd with rfl | hd
      · exact h1
      · exact Nat.lt_trans h1 (hk d hd)
    · rw [if_neg h1]
      by_cases h2 : a = k
      · subst h2
        rw [if_pos rfl, readCell_consCell hk, readCell]
        split <;> rfl
      · rw [if_neg h2, readCell, readCell, ih (wf_of_wf_cons h)]
        by_cases h3 : k = a'
        · subst h3; simp [h2]
        · simp [h3]

theorem mem_writeCell {m : List Host.Cell} {a : Nat} {b : Byte} {c : Host.Cell} (hc : c ∈ writeCell m a b) :
    c ∈ m ∨ (c = (a, b) ∧ b ≠ 0) := by
  induction m with
  | nil =>
    simp only [writeCell, consCell] at hc
    split at hc
    · simp at hc
    · exact .inr ⟨by simpa using hc, ‹_›⟩
  | cons d m ih =>
    obtain ⟨k, v⟩ := d
    simp only [writeCell] at hc
    split at hc
    · simp only [consCell] at hc
      split at hc
      · exact .inl hc
      · rcases List.mem_cons.mp hc with rfl | hc
        · exact .inr ⟨rfl, ‹_›⟩
        · exact .inl hc
    · split at hc
      · simp only [consCell] at hc
        split at hc
        · exact .inl (by simp [hc])
        · rcases List.mem_cons.mp hc with rfl | hc
          · exact .inr ⟨rfl, ‹_›⟩
          · exact .inl (by simp [hc])
      · rcases List.mem_cons.mp hc with rfl | hc
        · exact .inl (by simp)
        · rcases ih hc with h | h
          · exact .inl (by simp [h])
          · exact .inr h

theorem wf_consCell {m : List Host.Cell} (h : CellsWf m) {a : Nat} (ha : ∀ c ∈ m, a < c.1) (b : Byte) :
    CellsWf (consCell a b m) := by
  unfold consCell
  split
  · exact h
  · refine ⟨List.pairwise_cons.mpr ⟨ha, h.1⟩, fun d hd => ?_⟩
    rcases List.mem_cons.mp hd with rfl | hd
    · assumption
    · exact h.2 d hd

/-- A write keeps the canonical form. -/
theorem wf_writeCell {m : List Host.Cell} (h : CellsWf m) (a : Nat) (b : Byte) : CellsWf (writeCell m a b) := by
  induction m with
  | nil => exact wf_consCell h (by simp) b
  | cons c m ih =>
    obtain ⟨k, v⟩ := c
    have hk := lt_of_wf_cons h
    have hm := wf_of_wf_cons h
    simp only [writeCell]
    by_cases h1 : a < k
    · rw [if_pos h1]
      refine wf_consCell h (fun d hd => ?_) b
      rcases List.mem_cons.mp hd with rfl | hd
      · exact h1
      · exact Nat.lt_trans h1 (hk d hd)
    · rw [if_neg h1]
      by_cases h2 : a = k
      · subst h2; rw [if_pos rfl]; exact wf_consCell hm hk b
      · rw [if_neg h2]
        have ihm := ih hm
        refine ⟨List.pairwise_cons.mpr ⟨fun d hd => ?_, ihm.1⟩, fun d hd => ?_⟩
        · rcases mem_writeCell hd with hd | ⟨rfl, -⟩
          · exact hk d hd
          · show k < a; omega
        · rcases List.mem_cons.mp hd with rfl | hd
          · exact h.2 (k, v) (by simp)
          · exact ihm.2 d hd

/-- A burst write keeps the canonical form. -/
theorem wf_writeBurst {m : List Host.Cell} (h : CellsWf m) (mode : AddressMode) (a i : Nat) (bs : List Byte) :
    CellsWf (writeBurst m mode a i bs) := by
  induction bs generalizing m i with
  | nil => exact h
  | cons b bs ih => exact ih (wf_writeCell h _ b) (i + 1)

end Sys2Proof.Machine
end

