-- ==== Sys2Proof/Laws/PerInstr.lean ====
section
/-!
SUPPORT. What holds of every call as syntax, one lemma for each constructor. `RequestOfCall`: the call's request is one R31 can
express, its operands are the call's, and the core operation with that request is the one the call stands for (R31, R69, R78).
-/

namespace Sys2Proof.Laws.RequestOfCall

open Sys2Proof Sys2Proof.Machine

def Statement (i : Instr) : Prop :=
  i.request.consistent = true ∧ i.request.op = i.direction ∧ i.request.mode = i.mode ∧ i.request.addr = i.address ∧
    i.request.len = i.byteCount ∧ i.request.wdata = i.payload ∧ i.request.call = i.expand

theorem readInc (addr : RegisterAddress) (len : Nat) : Statement (.readInc addr len) :=
  ⟨rfl, rfl, rfl, rfl, rfl, rfl, rfl⟩

theorem readDec (addr : RegisterAddress) (len : Nat) : Statement (.readDec addr len) :=
  ⟨rfl, rfl, rfl, rfl, rfl, rfl, rfl⟩

theorem writeInc (addr : RegisterAddress) (data : List Byte) : Statement (.writeInc addr data) :=
  ⟨by simp [Instr.request, writeRequest, Request.consistent], rfl, rfl, rfl, rfl, rfl, rfl⟩

theorem writeDec (addr : RegisterAddress) (data : List Byte) : Statement (.writeDec addr data) :=
  ⟨by simp [Instr.request, writeRequest, Request.consistent], rfl, rfl, rfl, rfl, rfl, rfl⟩

theorem probe : Statement .probe :=
  ⟨rfl, rfl, rfl, rfl, rfl, rfl, rfl⟩

end Sys2Proof.Laws.RequestOfCall
end

