-- ==== Sys2Proof/Laws/Recode.lean ====
section
/-!
SUPPORT. What putting another IOCODE into a state leaves as it is, and that every named update of the state commutes with it (the
definitions are in Sys2Proof/Safety.lean).
-/

namespace Sys2Proof.Machine

/-! ## Of the parameters only `ioCodes` changes -/

@[simp] theorem admission_withCodes (p : Params) (codes : Option Nat) : admission (p.withCodes codes) = admission p := rfl
@[simp] theorem validate_withCodes (p : Params) (codes : Option Nat) (req : Request) :
    validate (p.withCodes codes) req = validate p req := rfl
@[simp] theorem latched_withCodes (p : Params) (codes : Option Nat) (req : Request) :
    req.latched (p.withCodes codes) = req.latched p := rfl
@[simp] theorem spanOf_withCodes (p : Params) (codes : Option Nat) (req : Request) :
    spanOf (p.withCodes codes) req = spanOf p req := rfl
@[simp] theorem decodeSpan_withCodes (p : Params) (codes : Option Nat) (sp : Span) :
    decodeSpan (p.withCodes codes) sp = decodeSpan p sp := rfl
@[simp] theorem expressible_withCodes (p : Params) (codes : Option Nat) (i : Instr) :
    i.expressible (p.withCodes codes) = i.expressible p := rfl

/-! ## Fields -/

section Fields

variable (s : State) (codes : Option Nat) (f : IoCode → IoCode)

@[simp] theorem State.recode_params : (s.recode codes f).params = s.params.withCodes codes := rfl
@[simp] theorem State.recode_phase : (s.recode codes f).phase = s.phase := rfl
@[simp] theorem State.recode_latch : (s.recode codes f).latch = s.latch := rfl
@[simp] theorem State.recode_rid : (s.recode codes f).rid = s.rid := rfl
@[simp] theorem State.recode_span : (s.recode codes f).span = s.span := rfl
@[simp] theorem State.recode_spanResult : (s.recode codes f).spanResult = s.spanResult.map (Answer.recode f) := rfl
@[simp] theorem State.recode_sel : (s.recode codes f).sel = s.sel := rfl
@[simp] theorem State.recode_agenda : (s.recode codes f).agenda = s.agenda.map (Move.recode f) := rfl
@[simp] theorem State.recode_tick : (s.recode codes f).tick = s.tick := rfl

@[simp] theorem State.length_recode : (s.recode codes f).ports.length = s.ports.length := by
  simp [State.recode]

@[simp] theorem State.pendAt_recode (r : Nat) : (s.recode codes f).pendAt r = s.pendAt r := by
  simp only [State.pendAt, State.recode, List.getElem?_map]
  cases s.ports[r]? <;> rfl

@[simp] theorem State.rspAt_recode (r : Nat) : (s.recode codes f).rspAt r = (s.rspAt r).map (Response.recode f) := by
  simp only [State.rspAt, State.recode, List.getElem?_map]
  cases s.ports[r]? <;> rfl

end Fields

/-! ## Updates -/

/-- Renaming commutes with a change of one port that commutes with it there. -/
theorem map_modify_recode (f : IoCode → IoCode) (g h : Port → Port) (hgh : ∀ q, (g q).recode f = h (q.recode f))
    (ports : List Port) (r : Nat) :
    (ports.modify r g).map (Port.recode f) = (ports.map (Port.recode f)).modify r h := by
  refine List.ext_getElem? fun k => ?_
  simp only [List.getElem?_map, List.getElem?_modify]
  cases ports[k]? with
  | none => rfl
  | some q => by_cases hk : r = k <;> simp [hk, hgh]

section Updates

variable (s : State) (codes : Option Nat) (f : IoCode → IoCode) (r : Nat)

theorem State.recode_fillSlot (i : Instr) : (s.fillSlot r i).recode codes f = (s.recode codes f).fillSlot r i := by
  simp only [State.recode, State.fillSlot]
  rw [map_modify_recode f _ (fun q => { q with pend := some i }) fun _ => rfl]

theorem State.recode_emptySlot : (s.emptySlot r).recode codes f = (s.recode codes f).emptySlot r := by
  simp only [State.recode, State.emptySlot]
  rw [map_modify_recode f _ (fun q => { q with pend := none }) fun _ => rfl]

theorem State.recode_dropResponse : (s.dropResponse r).recode codes f = (s.recode codes f).dropResponse r := by
  simp only [State.recode, State.dropResponse]
  rw [map_modify_recode f _ (fun q => { q with rsp := none }) fun _ => rfl]

theorem recode_respond (x : Response) :
    (respond r x s).recode codes f = respond r (x.recode f) (s.recode codes f) := by
  simp only [State.recode, respond, State.putResponse]
  rw [map_modify_recode f _ (fun q => { q with rsp := some (x.recode f) }) fun _ => rfl]

theorem recode_issue (req : Request) : (issue r req s).recode codes f = issue r req (s.recode codes f) := rfl

theorem State.recode_putAnswer (a : Answer) :
    (s.putAnswer a).recode codes f = (s.recode codes f).putAnswer (a.recode f) := rfl

theorem State.recode_takeAnswer : s.takeAnswer.recode codes f = (s.recode codes f).takeAnswer := rfl

theorem State.recode_select : (s.select r).recode codes f = (s.recode codes f).select r := rfl

end Updates

/-- RTF copies the code of an answer into its response. -/
theorem responseTo_recode (op : TransferDirection) (f : IoCode → IoCode) (a : Answer) :
    responseTo op (a.recode f) = (responseTo op a).recode f := by
  cases a <;> cases op <;> rfl

/-- The errors of validation have no code. -/
theorem recode_of_validate {p : Params} {req : Request} {e : TransportError} (f : IoCode → IoCode)
    (h : validate p req = some e) : (Response.err e).recode f = .err e := by
  unfold validate at h
  split at h
  · cases h; rfl
  · split at h <;> cases h; rfl

/-- An answer that fits its span fits it under another IOCODE, renamed. -/
theorem Answer.fits_recode {p : Params} {codes : Option Nat} {f : IoCode → IoCode} {sp : Span} {a : Answer}
    (hf : ∀ code, p.admitsCode code = true → (p.withCodes codes).admitsCode (f code) = true)
    (h : a.fits p sp = true) : (a.recode f).fits (p.withCodes codes) sp = true := by
  cases a with
  | ok rx => exact h
  | err code => exact hf code h

end Sys2Proof.Machine
end

