-- ==== Sys2Proof/Laws/Step.lean ====
section
/-!
SUPPORT. What each move and the step can do, said once: every way to a next state.
-/

namespace Sys2Proof.Machine

/-- A step to a next state is the next move under admitted parameters. -/
theorem step_cases {s t : State} (h : step s = .next t) :
    admission s.params = none ∧ performMove s.nextMove s.advance = .next t := by
  unfold step systemStep at h
  cases ha : admission s.params with
  | none => simpa [ha] using h
  | some r => simp [ha] at h

/-- With admitted parameters the step is the next move. -/
theorem step_eq_of_admitted {s : State} (h : admission s.params = none) :
    step s = performMove s.nextMove s.advance := by
  simp [step, systemStep, h]

theorem presentMove_cases {r : Nat} {i : Instr} {s t : State} (h : presentMove r i s = .next t) :
    r < s.ports.length ∧ s.blocked r = false ∧ i.expressible s.params = true ∧ t = s.fillSlot r i := by
  unfold presentMove at h
  split at h
  · cases h
  · split at h
    · cases h
    · split at h
      · cases h
      · rename_i h1 h2 h3
        exact ⟨by omega, by simpa using h2, by simpa using h3, by cases h; rfl⟩

theorem rewriteMove_cases {r : Nat} {data : List Byte} {s t : State} (h : rewriteMove r data s = .next t) :
    t = s ∨ (∃ i i', s.pendAt r = some i ∧ rewritePayload data i = some i' ∧ t = s.fillSlot r i') := by
  unfold rewriteMove at h
  split at h
  · cases h
  · cases hp : s.pendAt r with
    | none => simp only [hp, Host.Outcome.next.injEq] at h; exact .inl h.symm
    | some i =>
      cases hi : rewritePayload data i with
      | none => simp [hp, hi] at h
      | some i' =>
        simp only [hp, hi, Host.Outcome.next.injEq] at h
        exact .inr ⟨i, i', rfl, hi, h.symm⟩

/-- A changed payload keeps the length of the call, and its address, mode and direction. -/
theorem rewritePayload_byteCount {data : List Byte} {i i' : Instr} (h : rewritePayload data i = some i') :
    i'.byteCount = i.byteCount := by
  cases i <;> simp only [rewritePayload] at h
  case writeInc => split at h <;> cases h; simpa [Instr.byteCount]
  case writeDec => split at h <;> cases h; simpa [Instr.byteCount]
  all_goals cases h; rfl

/-- Every way ACCEPT(r) can end: it is not possible, or the request is rejected, or its span is issued. -/
theorem acceptMove_cases {r : Nat} {s t : State} (h : acceptMove r s = .next t) :
    (t = s ∧ (s.phase = .xfer ∨ s.pendAt r = none)) ∨
    (∃ i, s.phase = .idle ∧ s.pendAt r = some i ∧ t = accept r i.request (s.select r)) := by
  unfold acceptMove at h
  cases hp : s.phase with
  | xfer => simp only [hp, Host.Outcome.next.injEq] at h; exact .inl ⟨h.symm, .inl rfl⟩
  | idle =>
    cases hs : s.pendAt r with
    | none => simp only [hp, hs, Host.Outcome.next.injEq] at h; exact .inl ⟨h.symm, .inr rfl⟩
    | some i =>
      simp only [hp, hs] at h
      rw [exec_eq, transactionStep_idle (by simpa using hp) (by simpa using hs)] at h
      cases h
      exact .inr ⟨i, rfl, rfl, rfl⟩

/-- The refusal of an answer that does not fit is never the refusal of a span. -/
@[simp] theorem Answer.misfit_ne_headerOnlySpan (a : Answer) : a.misfit ≠ .headerOnlySpan := by
  cases a <;> simp [Answer.misfit]

theorem answerMove_cases {a : Answer} {s t : State} (h : answerMove a s = .next t) :
    (s.span = none ∧ t = s) ∨
    (∃ sp i, s.span = some sp ∧ decodeSpan s.params sp = .ok i ∧ a.fits s.params sp = true ∧
      t = s.putAnswer a) := by
  unfold answerMove at h
  cases hs : s.span with
  | none => simp only [hs, Host.Outcome.next.injEq] at h; exact .inl ⟨rfl, h.symm⟩
  | some sp =>
    simp only [hs] at h
    cases hd : decodeSpan s.params sp with
    | bad e => cases e <;> simp [hd] at h
    | ok i =>
      simp only [hd] at h
      split at h
      · cases h; exact .inr ⟨sp, i, rfl, hd, ‹_›, rfl⟩
      · cases h

/-- Every way COMPLETE can end. -/
theorem completeMove_cases {s t : State} (h : completeMove s = .next t) :
    t = s ∨ (∃ a, s.phase = .xfer ∧ s.spanResult = some a ∧
      t = respond s.rid (responseTo s.latch.op a) s.takeAnswer) := by
  unfold completeMove at h
  cases hp : s.phase with
  | idle => simp only [hp, Host.Outcome.next.injEq] at h; exact .inl h.symm
  | xfer =>
    simp only [hp, exec_eq] at h
    rcases transactionStep_cases h with rfl | ⟨hi, -⟩ | ⟨-, -, ht⟩
    · exact .inl rfl
    · rw [hp] at hi; cases hi
    · rcases complete_cases s with ⟨-, hc⟩ | ⟨a, ha, hc⟩
      · exact .inl (ht.trans hc)
      · exact .inr ⟨a, rfl, ha, ht.trans hc⟩

/-- A COMPLETE that is not possible changes nothing (R95, R140; log entry 9). -/
theorem completeMove_eq_self {s : State} (h : s.phase = .idle ∨ s.spanResult = none) : completeMove s = .next s := by
  unfold completeMove
  cases hp : s.phase with
  | idle => rfl
  | xfer =>
    have hr : s.spanResult = none := h.resolve_left (by simp [hp])
    simp only [exec_eq, transactionStep, hp]
    split <;> simp [complete, hr]

theorem resetMove_cases {s t : State} (h : resetMove s = .next t) :
    s.phase = .idle ∧ t = State.construct s.params s.agenda s.tick := by
  unfold resetMove at h
  cases hp : s.phase with
  | idle => simp only [hp, Host.Outcome.next.injEq] at h; exact ⟨rfl, h.symm⟩
  | xfer => simp [hp] at h

end Sys2Proof.Machine
end

