-- ==== Sys2Proof/Laws/Run.lean ====
section
/-!
SUPPORT. A run of the host's machine taken apart, one step at a time.
-/

namespace Sys2Proof.Machine

/-- A run of `k + 1` steps to a next state is a step to one, and a run of `k` steps from there. -/
theorem run_succ {k : Nat} {s t : State} :
    Host.Core.run core (k + 1) s = .next t ↔ ∃ u, step s = .next u ∧ Host.Core.run core k u = .next t := by
  simp only [Host.Core.run]
  cases h : core.step s with
  | next u =>
    have hs : step s = .next u := h
    exact ⟨fun hr => ⟨u, hs, hr⟩, fun ⟨v, hv, hr⟩ => by rw [hs] at hv; cases hv; exact hr⟩
  | fault f =>
    have hs : step s = .fault f := h
    simp [hs]
  | refused r =>
    have hs : step s = .refused r := h
    simp [hs]

end Sys2Proof.Machine
end

