-- ==== Sys2Proof/Laws/Safety.lean ====
section
/-!
SUPPORT. Drawing a move touches nothing the invariant is about, so an invariant proof need only look at what the move does; and the
small lemmas of the other definitions of Sys2Proof/Safety.lean and of the wire view.
-/

namespace Sys2Proof.Machine

/-- Drawing a move keeps a transaction in flight as it is. -/
theorem State.InFlight.advance {s : State} (h : s.InFlight) : s.advance.InFlight where
  owner := by simpa using h.owner
  ownerSlot := by simpa using h.ownerSlot
  ownerRsp := by simpa using h.ownerRsp
  consistent := by simpa using h.consistent
  lenPositive := by simpa using h.lenPositive
  lenAdmitted := by simpa using h.lenAdmitted
  addrValid := by simpa using h.addrValid
  channels := by simpa using h.channels

/-- Drawing a move keeps the invariant. -/
theorem State.Inv.advance {s : State} (h : s.Inv) : s.advance.Inv where
  portCount := by simpa using h.portCount
  oneOutstanding := by simpa using h.oneOutstanding
  expressible := by simpa using h.expressible
  codes := by simpa using h.codes
  idleQuiet := by simpa using h.idleQuiet
  flight hp := (h.flight (by simpa using hp)).advance

/-- The bytes a span of RTF asks to receive: `len` for a read, none for a write (R68). -/
theorem receiveLength_spanOf (p : Params) (req : Request) :
    receiveLength (spanOf p req) = if req.op = .read then req.len else 0 := by
  cases h : req.op <;> simp [spanOf, receiveLength, headerSegment, dataSegment, h]

/-- The line back is as long as the span's frame, where the answer fits. -/
theorem length_wireInBytes (sp : Span) (rx : List Byte) (h : rx.length = receiveLength sp) :
    (wireInBytes sp rx).length = frameBytes sp := by
  induction sp generalizing rx with
  | nil => rfl
  | cons seg segs ih =>
    by_cases hs : seg.rx
    · simp only [receiveLength, hs, if_true] at h
      simp [wireInBytes, frameBytes, hs, ih (rx.drop seg.len) (by simp [h])]
      omega
    · simp only [receiveLength, hs] at h
      simp [wireInBytes, frameBytes, hs, ih rx (by simpa using h)]

/-- A state without an answer is one in XFER with nothing on SPAN_RESULT (R132, R140). -/
theorem State.busy_of_awaitingAnswer {s : State} (h : s.awaitingAnswer = true) :
    s.phase = .xfer ∧ s.spanResult = none := by
  simpa [State.awaitingAnswer, State.busy] using h

/-- A request waits in slot `r` exactly where the slot holds a call. -/
theorem State.awaitingAcceptance_iff {s : State} {r : Nat} :
    s.awaitingAcceptance r = true ↔ ∃ i, s.pendAt r = some i := by
  simp [State.awaitingAcceptance, Option.isSome_iff_exists]

end Sys2Proof.Machine

namespace Sys2Proof

/-- No form of decrement mode is one that a run shows (R73). -/
theorem Instr.not_shown_of_decrement {i : Instr} (h : i.mode = .decrement) : i.shown = false := by
  cases i <;> simp_all [Instr.mode, Instr.shown, Instr.expand]

end Sys2Proof
end

