-- ==== Sys2Proof/Tests/Slice0.lean ====
section
/-!
SUPPORT. Tests of single steps against the vectors of spec/95_test_vectors.md (S1 to S5, V1 to V5, P1 to P4), a smoke test of
WellFormed, and for every obligation with hypotheses a state and operands that meet them all.
-/

namespace Sys2Proof.Tests

open Sys2Proof Sys2Proof.Machine

/-! ## Small states -/

/-- The call `i` waits in slot 0, and ACCEPT(0) comes next. -/
def waiting (p : Params) (i : Instr) : State :=
  (State.construct p [.accept 0] 0).fillSlot 0 i

/-- The transaction of `i`, asked by requester 0, is in flight with the span channels as given, and `m` comes next. -/
def flying (p : Params) (i : Instr) (sp : Option Span) (a : Option Answer) (m : Move) : State :=
  { State.construct p [m] 0 with phase := .xfer, latch := i.request.latched p, span := sp, spanResult := a }

/-- The defaults with `ADDR_POLICY = mask`. -/
def maskParams : Params := { Params.default with addrPolicy := .mask }

/-- The defaults with two requesters. -/
def twoParams : Params := { Params.default with nReq := 2 }

/-- The defaults with `MAX_LEN = 4`. -/
def shortParams : Params := { Params.default with maxLen := some 4 }

/-- The span a step leaves on SPAN. -/
def spanAfter (s : State) : Option Span := (nextState? (step s)).bind State.span

/-- The response a step leaves on `RSP[0]`. -/
def rspAfter (s : State) : Option Response := (nextState? (step s)).bind fun t => t.rspAt 0

/-! ## WellFormed: each check refuses an ill-formed call -/

theorem test_wf_accepts : Instr.wellFormed shortParams (.readInc 0x3FFF 4) = true := by decide
theorem test_wf_length_above_max : Instr.wellFormed shortParams (.readInc 0x0064 5) = false := by decide
theorem test_wf_address_above_max : Instr.wellFormed Params.default (.writeDec 0x4000 [0x00]) = false := by decide
theorem test_wf_no_data : Instr.wellFormed Params.default (.writeInc 0x0064 []) = false := by decide

/-! ## Decoding: words written out from the header table of R64 (V1) -/

theorem test_decode_readInc :
    decode Params.default [0b00000011, 0b01101010, 0b10111100, 0x00] = .ok (.readInc 0x2ABC 1) := by decide
theorem test_decode_readDec :
    decode Params.default [0b00000011, 0b10010010, 0b00110100, 0x00, 0x00] = .ok (.readDec 0x1234 2) := by decide
theorem test_decode_writeInc :
    decode Params.default [0b00000010, 0b01000001, 0b00100000, 0x11, 0x22] = .ok (.writeInc 0x0120 [0x11, 0x22]) := by decide
theorem test_decode_writeDec :
    decode Params.default [0b00000010, 0b10111111, 0b11111111, 0xAA] = .ok (.writeDec 0x3FFF [0xAA]) := by decide

theorem test_decode_truncated : decode Params.default [0x03, 0x40] = .bad .truncated := by decide
theorem test_decode_badOpcode : decode Params.default [0x0B, 0x40, 0x64, 0x00] = .bad .badOpcode := by decide
theorem test_decode_noFlag : decode Params.default [0x03, 0x00, 0x64, 0x00] = .bad .noFlag := by decide
theorem test_decode_bothFlags : decode Params.default [0x03, 0xC0, 0x64, 0x00] = .bad .bothFlags := by decide
theorem test_decode_headerOnly : decode Params.default [0x03, 0x40, 0x64] = .bad .headerOnly := by decide
theorem test_decodeSpan_one_segment :
    decodeSpan Params.default [{ tx := some [0x02, 0x40, 0x64, 0x55], rx := false, len := 4 }] = .bad .badSegments := by decide

/-! ## The order in which a span's defects are named (log entry 24), and the forms a run shows (R3, R73) -/

theorem test_decodeSpan_no_data : decodeSpan Params.default
    [{ tx := some [0x03, 0x40, 0x64], rx := false, len := 3 }, { tx := none, rx := true, len := 0 }] = .bad .headerOnly := by
  decide
theorem test_decodeSpan_noFlag_no_data : decodeSpan Params.default
    [{ tx := some [0x03, 0x00, 0x64], rx := false, len := 3 }, { tx := none, rx := true, len := 0 }] = .bad .noFlag := by
  decide
theorem test_shown : Instr.shown .probe = true ∧ Instr.shown (.readInc 0x0064 4) = true ∧
    Instr.shown (.readInc 0x0064 1) = false ∧ Instr.shown (.writeInc 0x0064 [0x00]) = false := by decide

theorem test_table_readInc : decodeTableWord 24 0x034000 = some (.readInc 0x0000 4) := by decide
theorem test_table_readDec : decodeTableWord 24 0x038000 = some (.readDec 0x0000 4) := by decide
theorem test_table_writeInc : decodeTableWord 24 0x024000 = some (.writeInc 0x0000 [0, 0, 0, 0]) := by decide
theorem test_table_writeDec : decodeTableWord 24 0x02BFFF = some (.writeDec 0x3FFF [0, 0, 0, 0]) := by decide
theorem test_table_probe : decodeTableWord 24 0x034064 = some .probe := by decide
theorem test_table_unflagged : decodeTableWord 24 0x030064 = none := by decide

/-! ## The header encoder (V1) -/

theorem test_hdr_readInc_3FFF : hdr Params.default .read .increment 0x3FFF = [0x03, 0x7F, 0xFF] := by decide
theorem test_hdr_readDec_3000 : hdr Params.default .read .decrement 0x3000 = [0x03, 0xB0, 0x00] := by decide
theorem test_hdr_writeInc_00FF : hdr Params.default .write .increment 0x00FF = [0x02, 0x40, 0xFF] := by decide
theorem test_hdr_writeDec_0100 : hdr Params.default .write .decrement 0x0100 = [0x02, 0x81, 0x00] := by decide
theorem test_headerWord_2ABC : headerWord Params.default .read .increment 0x2ABC = 0x036ABC := by decide

/-! ## ACCEPT: spans (V3) and validation (V2) -/

theorem test_readInc_span : spanAfter (waiting Params.default (.readInc 0x0064 1)) =
    some [{ tx := some [0x03, 0x40, 0x64], rx := false, len := 3 }, { tx := none, rx := true, len := 1 }] := by decide
theorem test_readDec_span : spanAfter (waiting Params.default (.readDec 0x1234 2)) =
    some [{ tx := some [0x03, 0x92, 0x34], rx := false, len := 3 }, { tx := none, rx := true, len := 2 }] := by decide
theorem test_writeInc_span : spanAfter (waiting Params.default (.writeInc 0x0120 [0x11, 0x22, 0x33, 0x44])) =
    some [{ tx := some [0x02, 0x41, 0x20], rx := false, len := 3 },
      { tx := some [0x11, 0x22, 0x33, 0x44], rx := false, len := 4 }] := by decide
theorem test_writeDec_span : spanAfter (waiting Params.default (.writeDec 0x3FFF [0xAA])) =
    some [{ tx := some [0x02, 0xBF, 0xFF], rx := false, len := 3 }, { tx := some [0xAA], rx := false, len := 1 }] := by decide
theorem test_probe_span : spanAfter (State.reset.withFetchWord 24 0x034064) =
    some [{ tx := some [0x03, 0x40, 0x64], rx := false, len := 3 }, { tx := none, rx := true, len := 4 }] := by decide

theorem test_zero_length_first : rspAfter (waiting Params.default (.readInc 0x4000 0)) = some (.err .invalidLength) := by decide
theorem test_write_empty : rspAfter (waiting maskParams (.writeInc 0x5000 [])) = some (.err .invalidLength) := by decide
theorem test_address_rejected : rspAfter (waiting Params.default (.writeDec 0xFFFF [0x00])) = some (.err .invalidAddress) := by
  decide
theorem test_address_rejected_no_span : spanAfter (waiting Params.default (.readInc 0x4000 1)) = none := by decide
theorem test_address_masked : spanAfter (waiting maskParams (.readInc 0xBEEF 2)) =
    some [{ tx := some [0x03, 0x7E, 0xEF], rx := false, len := 3 }, { tx := none, rx := true, len := 2 }] := by decide
theorem test_burst_past_end : spanAfter (waiting Params.default (.readInc 0x3FFE 8)) =
    some [{ tx := some [0x03, 0x7F, 0xFE], rx := false, len := 3 }, { tx := none, rx := true, len := 8 }] := by decide

/-! ## COMPLETE (V4), BUSY (V5) and the line back (R79) -/

theorem test_wireIn_read : wireIn (spanOf Params.default (readRequest .increment 0x0064 2)) (.ok [0xDE, 0xAD]) =
    some [none, none, none, some 0xDE, some 0xAD] := by decide
theorem test_wireIn_write : wireIn (spanOf Params.default (writeRequest .increment 0x0120 [0x11])) (.ok []) =
    some [none, none, none, none] := by decide

theorem test_read_bytes_unswapped : rspAfter (flying Params.default (.readInc 0x0064 4) none
    (some (.ok [0xEF, 0xBE, 0xAD, 0xDE])) .complete) = some (.okData [0xEF, 0xBE, 0xAD, 0xDE]) := by decide
theorem test_write_ok : rspAfter (flying Params.default (.writeInc 0x0120 [0x11]) none (some (.ok [])) .complete) =
    some .okDone := by decide
theorem test_probe_failure : rspAfter (flying Params.default .probe none (some (.err { token := 19 })) .complete) =
    some (.err (.ioFailure { token := 19 })) := by decide
theorem test_busy_after_accept :
    (nextState? (step (waiting Params.default .probe))).map State.busy = some true := by decide
theorem test_busy_after_complete : (nextState? (step (flying Params.default .probe none
    (some (.err { token := 110 })) .complete))).map State.busy = some false := by decide

/-! ## Codes (R18, R26, R70) -/

theorem test_status_codes : (Response.okData [0x00]).status = 0 ∧ Response.okDone.status = 0 ∧
    (Response.err .invalidLength).status = 1 ∧ (Response.err .invalidAddress).status = 2 ∧
    (Response.err (.ioFailure { token := 5 })).status = 3 := by decide
theorem test_operand_codes : TransferDirection.code .write = 1 ∧ AddressMode.code .decrement = 1 ∧ Phase.bit .xfer = 1 := by
  decide

/-! ## Agents: P4 (either requester may be accepted), P5 (no step out of XFER), refusals -/

/-- Both requesters of P4 have filled their slots, and `m` comes next. -/
def bothWaiting (m : Move) : State :=
  ((State.construct twoParams [m] 0).fillSlot 0 (.readInc 0x0064 4)).fillSlot 1 (.writeInc 0x0120 [0x55])

theorem test_history_A : (nextState? (step (bothWaiting (.accept 0)))).map State.rid = some 0 := by decide
theorem test_history_B : (nextState? (step (bothWaiting (.accept 1)))).map State.rid = some 1 := by decide
theorem test_unanswered_stays : (nextState? (step (flying Params.default .probe
    (some (spanOf Params.default Instr.probe.request)) none .complete))).map State.phase = some .xfer := by decide
theorem test_reset_in_flight_refused : nextState? (step (flying Params.default .probe none none .reset)) = none := by decide
theorem test_present_fills : (nextState? (step (State.construct Params.default [.present 0 .probe] 0))).bind
    (fun t => t.pendAt 0) = some .probe := by decide

/-! ## The reference mock (P1, P2) -/

/-- `M` of P1. -/
def byteTest : List Host.Cell := [(0x64, 0xDE), (0x65, 0xAD), (0x66, 0xBE), (0x67, 0xEF)]

theorem test_mock_probe : (transactMock Params.default Instr.probe.request
    { mem := byteTest, plan := [], history := [] }).map Prod.fst = some (.okData [0xDE, 0xAD, 0xBE, 0xEF]) := by decide
theorem test_mock_readDec : (transactMock Params.default (readRequest .decrement 0x0123 2)
    { mem := [(0x120, 0x11), (0x121, 0x22), (0x122, 0x33), (0x123, 0x44)], plan := [], history := [] }).map Prod.fst =
    some (.okData [0x44, 0x33]) := by decide
theorem test_mock_fault : (transactMock Params.default Instr.probe.request
    { mem := byteTest, plan := [.fault { token := 110 }], history := [] }).map Prod.fst =
    some (.err (.ioFailure { token := 110 })) := by decide

/-! ## The invariant on the small states -/

theorem ports_flying (p : Params) (i : Instr) (sp : Option Span) (a : Option Answer) (m : Move) (r : Nat) :
    (flying p i sp a m).pendAt r = none ∧ (flying p i sp a m).rspAt r = none :=
  ⟨State.pendAt_construct p [m] 0 r, State.rspAt_construct p [m] 0 r⟩

theorem inv_waiting {p : Params} {i : Instr} (hi : i.expressible p = true) : (waiting p i).Inv where
  portCount := by simp [waiting]
  oneOutstanding r _ _ := by
    simp only [waiting, State.rspAt_fillSlot]; exact State.rspAt_construct p [.accept 0] 0 r
  expressible r j hj := by
    simp only [waiting, State.pendAt_fillSlot] at hj
    split at hj
    · cases hj; exact hi
    · rw [State.pendAt_construct] at hj; cases hj
  codes r c hc := by
    simp only [waiting, State.rspAt_fillSlot] at hc
    rw [State.rspAt_construct] at hc; cases hc
  idleQuiet _ := ⟨rfl, rfl⟩
  flight h := by cases h

theorem inv_flying {p : Params} {i : Instr} {sp : Option Span} {a : Option Answer} {m : Move} (hn : 0 < p.nReq)
    (hw : i.wellFormed p = true) (hc : i.request.consistent = true)
    (hch : (sp = some (spanOf p i.request) ∧ a = none) ∨
      (sp = none ∧ ∃ b, a = some b ∧ b.fits p (spanOf p i.request) = true)) : (flying p i sp a m).Inv := by
  simp only [Instr.wellFormed, Instr.encodable, Bool.and_eq_true, decide_eq_true_eq] at hw
  have haddr : i.request.addr ≤ Config.addrMax := by
    have : i.request.addr = i.address := by cases i <;> rfl
    rw [this]; exact hw.2.1
  have hlat : (flying p i sp a m).latch = i.request := Request.latched_of_valid haddr
  refine ⟨by simp [flying], fun r j hj => ?_, fun r j hj => ?_, fun r c hr => ?_, (fun h => by cases h), fun _ => ?_⟩
  · rw [(ports_flying p i sp a m r).1] at hj; cases hj
  · rw [(ports_flying p i sp a m r).1] at hj; cases hj
  · rw [(ports_flying p i sp a m r).2] at hr; cases hr
  · refine ⟨hn, (ports_flying p i sp a m _).1, (ports_flying p i sp a m _).2, ?_, ?_, ?_, ?_, ?_⟩
    · rw [hlat]; exact hc
    · rw [hlat, Instr.len_request]; exact hw.2.2
    · rw [hlat, Instr.len_request]; exact hw.1
    · rw [hlat]; exact haddr
    · rw [hlat]; exact hch

/-- A read of 4 bytes in flight, answered. -/
def answeredRead : State :=
  flying Params.default (.readInc 0x0064 4) none (some (.ok [0xDE, 0xAD, 0xBE, 0xEF])) .complete

/-- A write in flight, answered. -/
def answeredWrite : State := flying Params.default (.writeDec 0x3FFF [0xAA]) none (some (.ok [])) .complete

/-- PROBE in flight, failed. -/
def failedProbe : State := flying Params.default .probe none (some (.err { token := 19 })) .complete

/-- PROBE in flight, not answered. -/
def openProbe (m : Move) : State :=
  flying Params.default .probe (some (spanOf Params.default Instr.probe.request)) none m

theorem inv_answeredRead : answeredRead.Inv :=
  inv_flying (by decide) (by decide) rfl (.inr ⟨rfl, _, rfl, by decide⟩)

theorem inv_answeredWrite : answeredWrite.Inv :=
  inv_flying (by decide) (by decide) (by decide) (.inr ⟨rfl, _, rfl, by decide⟩)

theorem inv_failedProbe : failedProbe.Inv :=
  inv_flying (by decide) (by decide) rfl (.inr ⟨rfl, _, rfl, rfl⟩)

theorem inv_openProbe (m : Move) : (openProbe m).Inv :=
  inv_flying (by decide) (by decide) rfl (.inl ⟨rfl, rfl⟩)

/-! ## Witnesses: the hypotheses of each obligation are met together -/

theorem ready_waiting {p : Params} {i : Instr} (h : 0 < p.nReq) : (waiting p i).Ready i :=
  ⟨rfl, by
    rw [waiting, State.pendAt_fillSlot, if_pos]
    exact ⟨rfl, by simpa using h⟩⟩

theorem witness_HeaderWordIsTheSumOfItsFields : (0x3FFF : RegisterAddress) ≤ 0x3FFF := by decide

theorem witness_DecodeInvertsEncode : Params.default.opcWrite ≠ 0x03 ∧
    Instr.wellFormed Params.default (.writeDec 0x3FFF [0xAA]) = true ∧ [(0x00 : Byte)].length = 1 := by decide

theorem witness_DecodeInvertsEncode_read : Params.default.opcWrite ≠ 0x03 ∧
    Instr.wellFormed Params.default .probe = true ∧ [(0xDE : Byte), 0xAD, 0xBE, 0xEF].length = Instr.byteCount .probe := by
  decide

theorem witness_EncodeInvertsDecode :
    decode Params.default [0x03, 0x7F, 0xFF, 0x00] = .ok (.readInc 0x3FFF 1) := by decide

theorem witness_SpanDecodesToItsRequest : Params.default.opcWrite ≠ 0x03 ∧
    (writeRequest .decrement 0x3FFF [0xAA]).consistent = true ∧ 1 ≤ (writeRequest .decrement 0x3FFF [0xAA]).len ∧
    (writeRequest .decrement 0x3FFF [0xAA]).addr ≤ 0x3FFF := by decide

theorem witness_ReadIncIssuesItsSpan : (waiting Params.default (.readInc 0x3FFF 1)).Ready (.readInc 0x3FFF 1) ∧ 1 ≤ 1 ∧
    (0x3FFF : RegisterAddress) ≤ 0x3FFF :=
  ⟨ready_waiting (by decide), by decide, by decide⟩

theorem witness_ReadIncIssuesItsSpan_mask : (waiting maskParams (.readInc 0xFFFF 2)).Ready (.readInc 0xFFFF 2) ∧ 1 ≤ 2 ∧
    (waiting maskParams (.readInc 0xFFFF 2)).params.addrPolicy = .mask :=
  ⟨ready_waiting (by decide), by decide, rfl⟩

theorem witness_ReadDecIssuesItsSpan : (waiting Params.default (.readDec 0x0000 2)).Ready (.readDec 0x0000 2) ∧ 1 ≤ 2 ∧
    (0x0000 : RegisterAddress) ≤ 0x3FFF :=
  ⟨ready_waiting (by decide), by decide, by decide⟩

theorem witness_WriteIncIssuesItsSpan : (waiting maskParams (.writeInc 0x4064 [0x7F])).Ready (.writeInc 0x4064 [0x7F]) ∧
    [(0x7F : Byte)] ≠ [] ∧ (waiting maskParams (.writeInc 0x4064 [0x7F])).params.addrPolicy = .mask :=
  ⟨ready_waiting (by decide), by decide, rfl⟩

theorem witness_WriteDecIssuesItsSpan : (waiting Params.default (.writeDec 0x3FFF [0xAA])).Ready (.writeDec 0x3FFF [0xAA]) ∧
    [(0xAA : Byte)] ≠ [] ∧ (0x3FFF : RegisterAddress) ≤ 0x3FFF :=
  ⟨ready_waiting (by decide), by decide, by decide⟩

theorem witness_ProbeIssuesItsSpan : (waiting Params.default .probe).Ready .probe := ready_waiting (by decide)

theorem witness_ZeroLengthIsRejected : (waiting Params.default (.readDec 0xFFFF 0)).Ready (.readDec 0xFFFF 0) ∧
    Instr.byteCount (.readDec 0xFFFF 0) = 0 :=
  ⟨ready_waiting (by decide), rfl⟩

theorem witness_ZeroLengthIsRejected_present :
    ∃ t, presentMove 0 (.readInc 0x0064 4) (State.construct shortParams [] 0) = .next t := ⟨_, rfl⟩

theorem witness_AddressAboveRangeIsRejected : (waiting Params.default (.writeInc 0x4000 [0x00])).Ready (.writeInc 0x4000 [0x00]) ∧
    Instr.byteCount (.writeInc 0x4000 [0x00]) ≠ 0 ∧ (0x3FFF : RegisterAddress) < Instr.address (.writeInc 0x4000 [0x00]) ∧
    (waiting Params.default (.writeInc 0x4000 [0x00])).params.addrPolicy = .reject :=
  ⟨ready_waiting (by decide), by decide, by decide, rfl⟩

theorem witness_AddressAboveRangeIsRejected_valid : (readRequest .increment 0x3FFF 1).addr ≤ 0x3FFF ∧
    maskParams.addrPolicy = .mask := by decide

theorem witness_MaskedAddressesAlias_mask : maskParams.addrPolicy = .mask ∧
    (0x8064 : RegisterAddress) &&& 0x3FFF = 0x0064 &&& 0x3FFF ∧ (0x8064 : RegisterAddress) ∈ [0x4064, 0x8064, 0xC064] := by
  decide

theorem witness_MaskedAddressesAlias_reject : Params.default.addrPolicy = .reject ∧
    validate Params.default (readRequest .increment 0x3FFF 1) = none ∧
    hdr Params.default .read .increment (effectiveAddress Params.default 0x3FFF) = [0x03, 0x7F, 0xFF] := by decide

theorem witness_ReadsRespondWithTheBytes : Instr.direction (.readInc 0x0064 4) = .read ∧
    answeredRead.Answered (Instr.readInc 0x0064 4).request (.ok [0xDE, 0xAD, 0xBE, 0xEF]) :=
  ⟨rfl, rfl, rfl, by decide, rfl⟩

theorem witness_WritesRespondWithoutData : Instr.direction (.writeDec 0x3FFF [0xAA]) = .write ∧
    answeredWrite.Answered (Instr.writeDec 0x3FFF [0xAA]).request (.ok []) :=
  ⟨rfl, rfl, rfl, by decide, rfl⟩

theorem witness_PrimitiveFaultsBecomeIoFailure :
    failedProbe.Answered Instr.probe.request (.err { token := 19 }) :=
  ⟨rfl, rfl, by decide, rfl⟩

theorem witness_SuccessfulCompletion_read : answeredRead.Inv ∧ admission answeredRead.params = none ∧
    answeredRead.nextMove = .complete ∧ answeredRead.phase = .xfer ∧
    answeredRead.spanResult = some (.ok [0xDE, 0xAD, 0xBE, 0xEF]) ∧ answeredRead.latch.op = .read :=
  ⟨inv_answeredRead, by decide, rfl, rfl, rfl, rfl⟩

theorem witness_SuccessfulCompletion_write : answeredWrite.Inv ∧ admission answeredWrite.params = none ∧
    answeredWrite.nextMove = .complete ∧ answeredWrite.phase = .xfer ∧ answeredWrite.spanResult = some (.ok []) ∧
    answeredWrite.latch.op = .write :=
  ⟨inv_answeredWrite, by decide, rfl, rfl, rfl, rfl⟩

theorem witness_FailedCompletion : failedProbe.Inv ∧ admission failedProbe.params = none ∧ failedProbe.nextMove = .complete ∧
    failedProbe.phase = .xfer ∧ failedProbe.spanResult = some (.err { token := 19 }) :=
  ⟨inv_failedProbe, by decide, rfl, rfl, rfl⟩

theorem witness_AcceptanceNeedsIdleAndAFilledSlot_waits : admission (openProbe (.accept 0)).params = none ∧
    (openProbe (.accept 0)).nextMove = .accept 0 ∧ (openProbe (.accept 0)).phase = .xfer := ⟨by decide, rfl, rfl⟩

theorem witness_AcceptanceNeedsIdleAndAFilledSlot_takes : admission (bothWaiting (.accept 1)).params = none ∧
    (bothWaiting (.accept 1)).nextMove = .accept 1 ∧ (bothWaiting (.accept 1)).phase = .idle ∧
    (bothWaiting (.accept 1)).pendAt 1 = some (.writeInc 0x0120 [0x55]) := ⟨by decide, rfl, rfl, by decide⟩

theorem witness_AcceptanceNeedsIdleAndAFilledSlot_empties : (waiting Params.default .probe).pendAt 0 = some .probe ∧
    (nextState? (step (waiting Params.default .probe))).map (fun t => t.pendAt 0) = some none := by decide

theorem witness_OtherOperationsWait : (openProbe .complete).phase = .xfer ∧
    (openProbe .complete).latch ≠ (Instr.readInc 0x0064 1).request.latched (openProbe .complete).params ∧
    State.reset.phase = .idle ∧ State.reset.pendAt State.reset.sel ≠ some .probe := by decide

theorem witness_BusyIsSetByAcceptAndClearedByComplete_set : (waiting Params.default .probe).busy = false ∧
    (nextState? (step (waiting Params.default .probe))).map State.busy = some true := by decide

theorem witness_BusyIsSetByAcceptAndClearedByComplete_cleared : failedProbe.busy = true ∧
    (nextState? (step failedProbe)).map State.busy = some false := by decide

theorem witness_BusyIsSetByAcceptAndClearedByComplete_read : admission (openProbe (.accept 0)).params = none ∧
    (openProbe (.accept 0)).nextMove = .accept 0 ∧ (openProbe (.accept 0)).busy = true := ⟨by decide, rfl, rfl⟩

theorem witness_NoErrorLeavesBusySet_rejected : admission (waiting Params.default (.readInc 0x4064 4)).params = none ∧
    (waiting Params.default (.readInc 0x4064 4)).nextMove = .accept 0 ∧
    (waiting Params.default (.readInc 0x4064 4)).phase = .idle ∧
    (waiting Params.default (.readInc 0x4064 4)).pendAt 0 = some (.readInc 0x4064 4) ∧
    validate Params.default (Instr.readInc 0x4064 4).request = some .invalidAddress :=
  ⟨by decide, rfl, rfl, by decide, by decide⟩

theorem witness_NoErrorLeavesBusySet_completed : failedProbe.Inv ∧ admission failedProbe.params = none ∧
    failedProbe.nextMove = .complete ∧ failedProbe.phase = .xfer ∧ failedProbe.spanResult = some (.err { token := 19 }) :=
  witness_FailedCompletion

theorem witness_SpansNeverOverlap : (openProbe .complete).phase = .xfer ∧
    spanAfter (openProbe .complete) = some (spanOf Params.default Instr.probe.request) := by decide

theorem witness_SpansComeFromValidRequests : (waiting Params.default .probe).span = none ∧
    spanAfter (waiting Params.default .probe) = some (spanOf Params.default Instr.probe.request) := by decide

theorem witness_EveryIssuedSpanHasTwoSegments : (waiting Params.default (.writeInc 0x0120 [0x7F])).Inv ∧
    spanAfter (waiting Params.default (.writeInc 0x0120 [0x7F])) =
      some (spanOf Params.default (Instr.writeInc 0x0120 [0x7F]).request) :=
  ⟨inv_waiting (by decide), by decide⟩

theorem witness_UnansweredSpanHoldsForEver : (openProbe .complete).agenda = [.complete] ++ [] ∧
    (∀ a, Move.answer a ∉ [Move.complete]) ∧ (openProbe .complete).phase = .xfer ∧
    (openProbe .complete).spanResult = none ∧ (openProbe .complete).rspAt (openProbe .complete).rid = none ∧
    ∃ t, Host.Core.run core 1 (openProbe .complete) = .next t :=
  ⟨rfl, by simp, rfl, rfl, by decide, _, run_succ.mpr ⟨_, rfl, rfl⟩⟩

theorem witness_UnansweredSpanHoldsForEver_leaves : failedProbe.phase = .xfer ∧
    (nextState? (step failedProbe)).map State.phase = some .idle := by decide

/-- The state before a whole transaction of PROBE. -/
def wholeProbe : State :=
  { waiting Params.default .probe with agenda := [.accept 0, .answer (.err { token := 110 }), .complete] }

theorem witness_TwoStepsRefineTheTransaction : wholeProbe.Inv ∧ admission wholeProbe.params = none ∧ wholeProbe.phase = .idle ∧
    wholeProbe.pendAt 0 = some .probe ∧
    wholeProbe.agenda = .accept 0 :: .answer (.err { token := 110 }) :: .complete :: [] ∧
    validate wholeProbe.params Instr.probe.request = none ∧
    Answer.fits wholeProbe.params (spanOf wholeProbe.params (Instr.probe.request.latched wholeProbe.params)) (.err { token := 110 }) = true :=
  have h := inv_waiting (p := Params.default) (i := .probe) (by decide)
  ⟨⟨h.portCount, h.oneOutstanding, h.expressible, h.codes, h.idleQuiet, fun hp => by cases hp⟩, by decide, rfl, by decide, rfl,
    by decide, rfl⟩

theorem witness_TwoStepsRefineTheTransaction_rejected : admission (waiting Params.default (.readInc 0x0064 0)).params = none ∧
    (waiting Params.default (.readInc 0x0064 0)).phase = .idle ∧
    (waiting Params.default (.readInc 0x0064 0)).pendAt 0 = some (.readInc 0x0064 0) ∧
    (waiting Params.default (.readInc 0x0064 0)).nextMove = .accept 0 ∧
    validate Params.default (Instr.readInc 0x0064 0).request ≠ none := ⟨by decide, rfl, by decide, rfl, by decide⟩

theorem witness_TransactionsAreDeterministic_accept : Instr.probe.request = (Instr.readInc 0x0064 4).request ∧
    (waiting Params.default .probe).Ready .probe ∧ (waiting Params.default (.readInc 0x0064 4)).Ready (.readInc 0x0064 4) ∧
    (∃ t, exec .probe (waiting Params.default .probe) = .next t) ∧
    (∃ t, exec (.readInc 0x0064 4) (waiting Params.default (.readInc 0x0064 4)) = .next t) ∧
    validate Params.default Instr.probe.request = none :=
  ⟨rfl, ready_waiting (by decide), ready_waiting (by decide), exec_next _ _, exec_next _ _, by decide⟩

theorem witness_TransactionsAreDeterministic_reject :
    (waiting Params.default (.readInc 0x4000 1)).Ready (.readInc 0x4000 1) ∧
    (∃ t, exec (.readInc 0x4000 1) (waiting Params.default (.readInc 0x4000 1)) = .next t) ∧
    validate Params.default (Instr.readInc 0x4000 1).request ≠ none :=
  ⟨ready_waiting (by decide), exec_next _ _, by decide⟩

theorem witness_TransactionsAreDeterministic_complete : failedProbe.Answered Instr.probe.request (.err { token := 19 }) ∧
    ∃ t, exec .probe failedProbe = .next t :=
  ⟨witness_PrimitiveFaultsBecomeIoFailure, exec_next _ _⟩

theorem witness_StepRunsTheOperation : admission (waiting Params.default .probe).params = none ∧
    (waiting Params.default .probe).nextMove = .accept 0 ∧ (waiting Params.default .probe).phase = .idle ∧
    (waiting Params.default .probe).pendAt 0 = some .probe ∧ failedProbe.nextMove = .complete ∧ failedProbe.phase = .xfer :=
  ⟨by decide, rfl, rfl, by decide, rfl, rfl⟩

theorem witness_PlacedWordRunsNext : admission State.reset.params = none ∧
    decodeTableWord 24 0x024000 = some (.writeInc 0x0000 [0, 0, 0, 0]) := by decide

theorem witness_StepKeepsTheInvariant : (waiting Params.default .probe).Inv ∧
    (nextState? (step (waiting Params.default .probe))).isSome = true :=
  ⟨inv_waiting (by decide), by decide⟩

theorem witness_FramerIsNeverBroken : (openProbe (.answer (.ok [0, 0, 0, 0]))).Inv := inv_openProbe _

theorem witness_ParametersNeverChange : (nextState? (step failedProbe)).isSome = true ∧
    failedProbe.ports.length = failedProbe.params.nReq := by decide

theorem witness_ResetMoveIsForIdleOnly : admission (State.construct twoParams [.reset] 0).params = none ∧
    (State.construct twoParams [.reset] 0).nextMove = .reset ∧ (State.construct twoParams [.reset] 0).phase = .idle ∧
    (openProbe .reset).nextMove = .reset ∧ (openProbe .reset).phase = .xfer := ⟨by decide, rfl, rfl, rfl, rfl⟩

theorem witness_ConfigurationsWithoutMeaningAreRefused_opcode :
    (State.construct { Params.default with opcWrite := 0x03 } [] 0).params.opcWrite = 0x03 := rfl

theorem witness_ConfigurationsWithoutMeaningAreRefused_length :
    ∃ n, (State.construct { Params.default with maxLen := some 3 } [] 0).params.maxLen = some n ∧ n < 4 :=
  ⟨3, rfl, by decide⟩

theorem witness_ConfigurationsWithoutMeaningAreRefused_requesters :
    (State.construct { Params.default with nReq := 0 } [] 0).params.nReq = 0 := rfl

/-- The default handle, not live. -/
def deadHandle : BusHandle := { Params.default.handle with live := false }

/-- The default handle with two instances. -/
def twoInstances : BusHandle := { Params.default.handle with instances := 2 }

/-- The default handle with one other user. -/
def foreignUser : BusHandle := { Params.default.handle with otherUsers := 1 }

/-- The default handle with a bus of 16-bit words. -/
def wideBus : BusHandle := { Params.default.handle with wordBits := 16 }

theorem witness_ConfigurationsWithoutMeaningAreRefused_dead :
    (State.construct { Params.default with handle := deadHandle } [] 0).params.handle.live = false := rfl

theorem witness_ConfigurationsWithoutMeaningAreRefused_instances :
    (State.construct { Params.default with handle := twoInstances } [] 0).params.handle.instances ≠ 1 := by decide

theorem witness_ConfigurationsWithoutMeaningAreRefused_users :
    (State.construct { Params.default with handle := foreignUser } [] 0).params.handle.otherUsers ≠ 0 := by decide

theorem witness_ConfigurationsWithoutMeaningAreRefused_words :
    (State.construct { Params.default with handle := wideBus } [] 0).params.handle.wordBits ≠ 8 := by decide

theorem witness_ConfigurationsWithoutMeaningAreRefused_admitted : shortParams.opcWrite ≠ 0x03 ∧
    (∀ n, shortParams.maxLen = some n → 4 ≤ n) ∧ shortParams.maxLen = some 4 ∧ 1 ≤ shortParams.nReq ∧
    shortParams.handle.live = true ∧ shortParams.handle.instances = 1 ∧ shortParams.handle.otherUsers = 0 ∧
    shortParams.handle.wordBits = 8 :=
  ⟨by decide, fun n h => by cases h; decide, rfl, by decide, rfl, rfl, rfl, rfl⟩

theorem witness_RequesterFillsItsOwnSlot :
    0 < (State.construct Params.default [] 0).ports.length ∧ (State.construct Params.default [] 0).pendAt 0 = none ∧
    (State.construct Params.default [] 0).rspAt 0 = none ∧ (State.construct Params.default [] 0).phase = .idle ∧
    Instr.expressible Params.default .probe = true := by decide

theorem witness_RequesterFillsItsOwnSlot_blocked : 0 < (openProbe .complete).ports.length ∧
    (openProbe .complete).phase = .xfer ∧ (openProbe .complete).rid = 0 := by decide

theorem witness_AcceptedPayloadIsASnapshot :
    (nextState? (rewriteMove 0 [0x99] (waiting Params.default (.writeInc 0x0120 [0x55])))).bind (fun t => t.pendAt 0) =
      some (.writeInc 0x0120 [0x99]) := by decide

theorem witness_AcceptedPayloadIsASnapshot_dec :
    (nextState? (rewriteMove 0 [0x99] (waiting Params.default (.writeDec 0x0120 [0x55])))).bind (fun t => t.pendAt 0) =
      some (.writeDec 0x0120 [0x99]) := by decide

theorem witness_AcceptedPayloadIsASnapshot_read :
    (∃ t, rewriteMove 0 [0x99] (waiting Params.default (.readInc 0x0064 4)) = .next t) ∧
    (waiting Params.default (.readInc 0x0064 4)).pendAt 0 = some (.readInc 0x0064 4) ∧
    (∃ t, rewriteMove 0 [0x99] (waiting Params.default (.readDec 0x0064 4)) = .next t) ∧
    (waiting Params.default (.readDec 0x0064 4)).pendAt 0 = some (.readDec 0x0064 4) :=
  ⟨⟨_, rfl⟩, by decide, ⟨_, rfl⟩, by decide⟩

theorem witness_AcceptedPayloadIsASnapshot_probe :
    (∃ t, rewriteMove 0 [0x99] (waiting Params.default .probe) = .next t) ∧
    (waiting Params.default .probe).pendAt 0 = some .probe :=
  ⟨⟨_, rfl⟩, by decide⟩

theorem witness_AcceptedPayloadIsASnapshot_empty :
    (∃ t, rewriteMove 0 [0x99] (openProbe .complete) = .next t) ∧ (openProbe .complete).pendAt 0 = none :=
  ⟨⟨_, rfl⟩, by decide⟩

theorem witness_PrimitiveMayAnswerAnything : (openProbe .complete).Inv ∧ admission (openProbe .complete).params = none ∧
    (openProbe .complete).span = some (spanOf Params.default Instr.probe.request) ∧
    (∀ rx, Answer.ok [1, 2, 3, 4] = .ok rx →
      rx.length = (if (openProbe .complete).latch.op = .read then (openProbe .complete).latch.len else 0)) ∧
    (∀ code, Answer.ok [1, 2, 3, 4] = .err code → (openProbe .complete).params.admitsCode code = true) ∧
    ∀ code, Answer.err { token := 5 } = .err code → (openProbe .complete).params.admitsCode code = true :=
  ⟨inv_openProbe _, by decide, rfl, fun rx h => by cases h; decide, fun _ h => (by cases h), fun _ h => by cases h; rfl⟩

theorem witness_WireViewOfAFrame : (readRequest .increment 0x0064 4).consistent = true ∧
    (Answer.ok [0xDE, 0xAD, 0xBE, 0xEF]).fits Params.default (spanOf Params.default (readRequest .increment 0x0064 4)) = true ∧
    (writeRequest .increment 0x0120 [0x11]).consistent = true ∧
    (Answer.ok []).fits Params.default (spanOf Params.default (writeRequest .increment 0x0120 [0x11])) = true := by decide

theorem witness_StuckFormsLastAndAreNotFinal : admission (openProbe .complete).params = none ∧
    (openProbe .complete).agenda = List.replicate 1 .complete ++ [] ∧ (openProbe .complete).awaitingAnswer = true ∧
    (bothWaiting .complete).agenda = List.replicate 1 .complete ++ [] ∧ (bothWaiting .complete).phase = .idle ∧
    (bothWaiting .complete).awaitingAcceptance 1 = true := by decide

theorem witness_FaultCodesAreOnlyCopied : failedProbe.agenda ≠ [] ∧
    (∀ code, failedProbe.params.admitsCode code = true →
      (failedProbe.params.withCodes (some 1)).admitsCode ((fun _ => { token := 0 }) code) = true) ∧
    (nextState? (step failedProbe)).isSome = true :=
  ⟨by decide, fun _ _ => rfl, by decide⟩

/-- The defaults with an IOCODE of 20 codes. -/
def twentyCodes : Params := { Params.default with ioCodes := some 20 }

/-- PROBE in flight under an IOCODE of 20 codes, and `m` comes next. -/
def openTwenty (m : Move) : State :=
  flying twentyCodes .probe (some (spanOf twentyCodes Instr.probe.request)) none m

theorem test_last_code_taken : (nextState? (step (openTwenty (.answer (.err { token := 19 }))))).bind State.spanResult =
    some (.err { token := 19 }) := by decide
theorem test_first_code_outside_refused : nextState? (step (openTwenty (.answer (.err { token := 20 })))) = none := by decide

theorem witness_OnlyCodesOfTheTypeAppear : (openTwenty .complete).Inv ∧ (openTwenty .complete).span ≠ none ∧
    (openTwenty .complete).params.opcWrite ≠ 0x03 ∧ (openTwenty .complete).params.admitsCode { token := 20 } = false :=
  ⟨inv_flying (by decide) (by decide) rfl (.inl ⟨rfl, rfl⟩), by decide, by decide, by decide⟩

theorem witness_OnlyCodesOfTheTypeAppear_response : failedProbe.Inv ∧
    rspAfter failedProbe = some (.err (.ioFailure { token := 19 })) := ⟨inv_failedProbe, by decide⟩

theorem witness_OnlyCodesOfTheTypeAppear_result : (openTwenty (.answer (.err { token := 19 }))).Inv ∧
    (nextState? (step (openTwenty (.answer (.err { token := 19 }))))).bind State.spanResult = some (.err { token := 19 }) :=
  ⟨inv_flying (by decide) (by decide) rfl (.inl ⟨rfl, rfl⟩), by decide⟩

/-- Both requesters of P4 wait, and a whole transaction of requester 0 comes next. -/
def servedFirst : State :=
  { bothWaiting .complete with agenda := [.accept 0, .answer (.ok [0xDE, 0xAD, 0xBE, 0xEF]), .complete] }

theorem witness_PendingRequestWaitsForItsAccept :
    servedFirst.agenda = [.accept 0, .answer (.ok [0xDE, 0xAD, 0xBE, 0xEF]), .complete] ++ [] ∧
    Move.accept 1 ∉ servedFirst.agenda ∧ Move.reset ∉ servedFirst.agenda ∧ servedFirst.awaitingAcceptance 1 = true ∧
    ∃ t, Host.Core.run core 3 servedFirst = .next t ∧ t.rspAt 0 = some (.okData [0xDE, 0xAD, 0xBE, 0xEF]) :=
  ⟨rfl, by decide, by decide, by decide, _,
    run_succ.mpr ⟨_, rfl, run_succ.mpr ⟨_, rfl, run_succ.mpr ⟨_, rfl, rfl⟩⟩⟩, by decide⟩

theorem witness_MockBurstWriteIsReadBack : CellsWf byteTest ∧ burstInside .decrement 0x0001 2 = true ∧
    burstInside .increment 0x3FFE 2 = true := by decide

theorem witness_MockWriteThenReadReturnsTheData : Params.default.opcWrite ≠ 0x03 ∧
    CellsWf ({ mem := byteTest, plan := [], history := [] } : Mock).mem ∧ (0x3FFF : RegisterAddress) ≤ 0x3FFF ∧
    [(0xAA : Byte)] ≠ [] ∧ burstInside .decrement (0x3FFF : RegisterAddress).toNat [(0xAA : Byte)].length = true := by decide

end Sys2Proof.Tests
end

section
/-!
PROOFS. The header encoder (30_encoding.md): what the low address byte carries.
-/

namespace Sys2Proof

/-- R62: the low address byte is address bits 7 to 0. -/
theorem addrLoByte_eq_extract (addr : RegisterAddress) : addrLoByte addr = addr.extractLsb' 0 8 :=
  BitVec.setWidth_eq_extractLsb' (by decide)

/-- R62: the low address byte as a number. -/
theorem addrLoByte_toNat (addr : RegisterAddress) : (addrLoByte addr).toNat = addr.toNat % 256 :=
  BitVec.toNat_setWidth 8 addr

/-- R62: widened to an address again, the low address byte is `addr & 0xFF`. -/
theorem addrLoByte_setWidth (addr : RegisterAddress) : (addrLoByte addr).setWidth 16 = addr &&& 0xFF := by
  have hmask : (addr &&& 0xFF).toNat = addr.toNat % 256 := Nat.and_two_pow_sub_one_eq_mod addr.toNat 8
  apply BitVec.eq_of_toNat_eq
  rw [hmask, BitVec.toNat_setWidth, addrLoByte_toNat]
  omega

/-- Settles O1: byte 2 of `hdr` is `addrLoByte`, which is given the address alone. -/
theorem headerByteTwoIsLowAddress : Obligations.HeaderByteTwoIsLowAddress := by
  intro p op mode addr
  exact ⟨opcodeByte p op, addrHiByte mode addr, addrLoByte addr, rfl, addrLoByte_eq_extract addr, addrLoByte_setWidth addr⟩

end Sys2Proof
end

section
/-!
PROOFS. RTF's two steps (40_transaction.md): what ACCEPT answers a rejected call (R84), what COMPLETE gives the owner
(R91, R92), and that requests and answers alone decide both (R99).
-/

namespace Sys2Proof.Machine

/-! ## ACCEPT -/

/-- R81: where ACCEPT of a call is ready, the call's meaning is ACCEPT of its request. -/
theorem exec_of_ready {s : State} {i : Instr} (h : s.Ready i) : exec i s = .next (accept s.sel i.request s) := by
  rw [exec_eq, transactionStep_idle h.idle h.slot]

theorem accept_of_invalid {s : State} {req : Request} {e : TransportError} (h : validate s.params req = some e) (r : Nat) :
    accept r req s = raiseError r e (s.emptySlot r) := by
  simp [accept, h]

theorem accept_of_valid {s : State} {req : Request} (h : validate s.params req = none) (r : Nat) :
    accept r req s = issue r req (s.emptySlot r) := by
  simp [accept, h]

/-- R90: the span ACCEPT issues for a valid request is made of the parameters and the request alone. -/
theorem accept_span_of_valid {s : State} {req : Request} (h : validate s.params req = none) (r : Nat) :
    (accept r req s).span = some (spanOf s.params (req.latched s.params)) := by
  simp [accept_of_valid h]

/-- R86, R118: the requester of a rejected request finds the error on its channel. -/
theorem accept_rspAt_of_invalid {s : State} {req : Request} {e : TransportError} {r : Nat}
    (h : validate s.params req = some e) (hr : r < s.ports.length) : (accept r req s).rspAt r = some (.err e) := by
  simp [accept_of_invalid h, rspAt_raiseError, hr]

/-- R86, R118: rejection of the request in the selected slot touches that slot, its response channel and `phase`, and
nothing else. -/
theorem errorGiven_accept {s : State} {req : Request} {e : TransportError} (h : validate s.params req = some e)
    (hr : s.sel < s.ports.length) : ErrorGiven s (accept s.sel req s) e := by
  have hrsp := accept_rspAt_of_invalid h hr
  rw [accept_of_invalid h] at hrsp ⊢
  exact {
    phase := rfl
    busy := rfl
    response := hrsp
    slot := by simp [State.pendAt_emptySlot]
    otherSlots := fun r hne => by simp [State.pendAt_emptySlot, hne.symm]
    otherResponses := fun r hne => by simp [rspAt_raiseError, hne.symm]
    span := rfl
    spanResult := rfl
    latch := rfl
    rid := rfl
    rest := ⟨rfl, rfl, rfl, rfl, by simp [raiseError_ports]⟩ }

/-- R84: the length 0 is rejected before anything else is looked at. -/
theorem validate_of_len_zero {p : Params} {req : Request} (h : req.len = 0) : validate p req = some .invalidLength := by
  simp [validate, h]

/-- R84: of the length, validation asks only whether it is 0. -/
theorem validate_len_congr (p : Params) (req : Request) {n m : Nat} (hn : n ≠ 0) (hm : m ≠ 0) :
    validate p { req with len := n } = validate p { req with len := m } := by
  simp [validate, hn, hm]

/-! ## COMPLETE -/

/-- R91, R92: with an answer on SPAN_RESULT, COMPLETE gives the owner the response to it. -/
theorem complete_of_answer {s : State} {a : Answer} (h : s.spanResult = some a) :
    complete s = respond s.rid (responseTo s.latch.op a) s.takeAnswer := by
  rcases complete_cases s with ⟨hn, -⟩ | ⟨b, hb, hc⟩
  · simp [hn] at h
  · rw [h] at hb
    cases hb
    exact hc

/-- R95: COMPLETE's response touches the owner's channel, SPAN_RESULT and `phase`, and nothing else. -/
theorem responseGiven_respond {s : State} (h : s.rid < s.ports.length) (x : Response) :
    ResponseGiven s (respond s.rid x s.takeAnswer) x where
  phase := rfl
  busy := rfl
  response := by simp [rspAt_respond, h]
  otherResponses := fun r hne => by simp [rspAt_respond, hne.symm]
  slots := fun r => by simp
  span := rfl
  spanResult := rfl
  latch := rfl
  rid := rfl
  rest := ⟨rfl, rfl, rfl, rfl, by simp [respond_ports]⟩

/-- R91, R92, R95: the meaning of the call in flight, once it is answered, is to give the owner the response to that answer. -/
theorem exec_of_answered {s : State} {i : Instr} {a : Answer} (h : s.Answered i.request a) :
    ∃ t, exec i s = .next t ∧ ResponseGiven s t (responseTo i.request.op a) := by
  have hop : s.latch.op = i.request.op := by rw [h.latch, Request.latched_op]
  rw [exec_eq, transactionStep_xfer h.xfer h.latch, complete_of_answer h.result, hop]
  exact ⟨_, rfl, responseGiven_respond h.owner _⟩

/-- R25, R69: the latch names a core call whose transaction is the one in flight. -/
theorem State.Inv.answered {s : State} {a : Answer} (h : s.Inv) (hp : s.phase = .xfer) (ha : s.spanResult = some a) :
    s.Answered s.latch.call.request a where
  xfer := hp
  latch := by
    rw [Request.request_call (h.flight hp).consistent, Request.latched_of_valid (h.flight hp).addrValid]
  owner := h.portCount ▸ (h.flight hp).owner
  result := ha

/-- R15, R34: an answer in XFER fits the span of the latch, and that span is off SPAN. -/
theorem State.InFlight.fits_of_answer {s : State} {a : Answer} (h : s.InFlight) (ha : s.spanResult = some a) :
    s.span = none ∧ a.fits s.params (spanOf s.params s.latch) = true := by
  rcases h.channels with ⟨-, hn⟩ | ⟨hs, b, hb, hfits⟩
  · simp [hn] at ha
  · rw [ha] at hb
    cases hb
    exact ⟨hs, hfits⟩

/-- R34, R88: `Ok(rx)` to a read in flight carries `T.len` bytes. -/
theorem State.InFlight.length_of_read {s : State} {rx : List Byte} (h : s.InFlight) (hop : s.latch.op = .read)
    (ha : s.spanResult = some (.ok rx)) : rx.length = s.latch.len := by
  simpa [Answer.fits, receiveLength_spanOf, hop] using (h.fits_of_answer ha).2

/-- R91, R92, at the step: a COMPLETE that has an answer gives the owner the response to it. -/
theorem step_of_complete {s : State} {a : Answer} (h : s.Inv) (hadm : admission s.params = none)
    (hmove : s.nextMove = .complete) (hp : s.phase = .xfer) (ha : s.spanResult = some a) :
    ∃ t, step s = .next t ∧ ResponseGiven s.advance t (responseTo s.latch.op a) := by
  have hexec : step s = exec s.advance.latch.call s.advance := by
    simp [step_eq_of_admitted hadm, hmove, performMove, completeMove, hp]
  have hop : s.advance.latch.call.request.op = s.latch.op := by
    rw [Request.request_call (h.advance.flight (by simpa using hp)).consistent, State.advance_latch]
  rw [hexec, ← hop]
  exact exec_of_answered (h.advance.answered (by simpa using hp) (by simpa using ha))

end Sys2Proof.Machine

namespace Sys2Proof

open Machine

/-- Settles O14: validation looks at the length before the address, and the requester's move asks `MAX_LEN`. -/
theorem zeroLengthIsRejected : Obligations.ZeroLengthIsRejected := by
  refine ⟨fun s i hready hzero => ?_, fun r i s t hmove => ?_, fun p req n m hn hm => validate_len_congr p req hn hm⟩
  · have hlen : i.request.len = 0 := by rw [Instr.len_request, hzero]
    exact ⟨_, exec_of_ready hready, errorGiven_accept (validate_of_len_zero hlen) (State.lt_of_pendAt hready.slot)⟩
  · obtain ⟨-, -, hexpressible, -⟩ := presentMove_cases hmove
    exact hexpressible

/-- Settles O20: COMPLETE's response, read for each direction; the length is that of an answer that fits the span. -/
theorem successfulCompletion : Obligations.SuccessfulCompletion := by
  intro s rx hinv hadm hmove hp ha
  obtain ⟨t, hstep, hgiven⟩ := step_of_complete hinv hadm hmove hp ha
  refine ⟨t, hstep, fun hop => ?_, fun hop => ?_⟩ <;> rw [hop] at hgiven
  · exact ⟨(hinv.flight hp).length_of_read hop ha, hgiven⟩
  · exact hgiven

/-- Settles O21: COMPLETE's response to a fault; SPAN was empty once the answer stood, and COMPLETE leaves it so. -/
theorem failedCompletion : Obligations.FailedCompletion := by
  intro s code hinv hadm hmove hp ha
  obtain ⟨t, hstep, hgiven⟩ := step_of_complete hinv hadm hmove hp ha
  have hspan : t.span = none := by
    rw [hgiven.span, State.advance_span, ((hinv.flight hp).fits_of_answer ha).1]
  exact ⟨t, hstep, hgiven, rfl, hspan⟩

/-- Settles O31: the span or error of ACCEPT and the response of COMPLETE are each given by parameters, request and answer
alone. -/
theorem transactionsAreDeterministic : Obligations.TransactionsAreDeterministic := by
  constructor
  · intro s₁ s₂ t₁ t₂ i₁ i₂ hparams hreq hready₁ hready₂ h₁ h₂
    rw [exec_of_ready hready₁] at h₁
    rw [exec_of_ready hready₂, ← hreq] at h₂
    cases h₁
    cases h₂
    refine ⟨fun hvalid => ?_, fun hinvalid => ?_⟩
    · rw [accept_span_of_valid hvalid, accept_span_of_valid (hparams ▸ hvalid), hparams]
      simp
    · obtain ⟨e, he⟩ := Option.ne_none_iff_exists'.mp hinvalid
      rw [accept_rspAt_of_invalid he (State.lt_of_pendAt hready₁.slot),
        accept_rspAt_of_invalid (hparams ▸ he) (State.lt_of_pendAt hready₂.slot)]
      simp
  · intro s₁ s₂ t₁ t₂ i₁ i₂ a _ hreq hans₁ hans₂ h₁ h₂
    obtain ⟨u₁, hu₁, hgiven₁⟩ := exec_of_answered hans₁
    obtain ⟨u₂, hu₂, hgiven₂⟩ := exec_of_answered hans₂
    cases h₁.symm.trans hu₁
    cases h₂.symm.trans hu₂
    rw [hgiven₁.response, hgiven₂.response, hreq]
    simp

end Sys2Proof
end

section
/-!
PROOFS. ACCEPT of a valid request (40_transaction.md R85, R90, R95): the header carries 14 address bits, so the span of the
request is the span of its latch, and the call's meaning issues it. With that, what the read family (41_read.md) issues.
-/

namespace Sys2Proof

open Machine

/-! ## The 14 address bits of a header -/

/-- R60: header byte 1 is the mode flag or address bits 13 to 8. -/
theorem addrHiByte_eq_extract (mode : AddressMode) (addr : RegisterAddress) :
    addrHiByte mode addr = flagByte mode ||| (addr.extractLsb' 8 6).setWidth 8 := by
  have hmask (x : Byte) : (x &&& Config.addrHiMask).toNat = x.toNat % 64 := Nat.and_two_pow_sub_one_eq_mod _ 6
  rw [addrHiByte]
  congr 1
  apply BitVec.eq_of_toNat_eq
  rw [hmask, BitVec.toNat_setWidth, BitVec.toNat_setWidth, BitVec.toNat_ushiftRight, BitVec.extractLsb'_toNat, Config.wordBits]
  omega

/-- R60, R85: header byte 1 does not show the address bits that `mask` clears. -/
@[simp] theorem addrHiByte_and_addrMax (mode : AddressMode) (addr : RegisterAddress) :
    addrHiByte mode (addr &&& Config.addrMax) = addrHiByte mode addr := by
  have hones : Config.addrMax.extractLsb' 8 6 = BitVec.allOnes 6 := by decide
  rw [addrHiByte_eq_extract, addrHiByte_eq_extract, BitVec.extractLsb'_and, hones, BitVec.and_allOnes]

/-- R62, R85: neither does header byte 2. -/
@[simp] theorem addrLoByte_and_addrMax (addr : RegisterAddress) :
    addrLoByte (addr &&& Config.addrMax) = addrLoByte addr := by
  have hones : Config.addrMax.extractLsb' 0 8 = BitVec.allOnes 8 := by decide
  rw [addrLoByte_eq_extract, addrLoByte_eq_extract, BitVec.extractLsb'_and, hones, BitVec.and_allOnes]

@[simp] theorem hdr_and_addrMax (p : Params) (op : TransferDirection) (mode : AddressMode) (addr : RegisterAddress) :
    hdr p op mode (addr &&& Config.addrMax) = hdr p op mode addr := by
  simp [hdr]

/-- R85: an address up to `ADDR_MAX` is its own 14 low bits. -/
theorem and_addrMax_of_le {addr : RegisterAddress} (h : addr ≤ Config.addrMax) : addr &&& Config.addrMax = addr := by
  have hand : (addr &&& Config.addrMax).toNat = addr.toNat % 2 ^ 14 := Nat.and_two_pow_sub_one_eq_mod _ 14
  have hlt : addr.toNat < 2 ^ 14 := Nat.lt_succ_of_le (BitVec.le_def.mp h)
  exact BitVec.eq_of_toNat_eq (hand.trans (Nat.mod_eq_of_lt hlt))

namespace Machine

/-! ## ACCEPT of a valid request -/

/-- R89: the header alone reads a request's address, so a span does not show the address bits that `mask` clears. -/
theorem spanOf_and_addrMax (p : Params) (req : Request) :
    spanOf p { req with addr := req.addr &&& Config.addrMax } = spanOf p req := by
  simp [spanOf, headerSegment, dataSegment]

/-- R85, R90: whatever the policy, a request with an address that passes is latched with its 14 low bits. -/
theorem Request.latched_eq_and_addrMax {p : Params} {req : Request}
    (h : req.addr ≤ Config.addrMax ∨ p.addrPolicy = .mask) :
    req.latched p = { req with addr := req.addr &&& Config.addrMax } := by
  by_cases hle : req.addr ≤ Config.addrMax
  · rw [Request.latched_of_valid hle, and_addrMax_of_le hle]
  · have hmask : p.addrPolicy = .mask := h.resolve_left hle
    simp [Request.latched, effectiveAddress, BitVec.not_le.mp hle, hmask]

/-- R84, R85: a positive length and an address in range, or under `mask`, are all that validation asks. -/
theorem validate_eq_none_of_valid {p : Params} {req : Request} (hlen : 1 ≤ req.len)
    (haddr : req.addr ≤ Config.addrMax ∨ p.addrPolicy = .mask) : validate p req = none := by
  refine validate_eq_none.mpr ⟨Nat.one_le_iff_ne_zero.mp hlen, fun ⟨hgt, hreject⟩ => ?_⟩
  rcases haddr with hle | hmask
  · exact BitVec.not_lt.mpr hle hgt
  · simp [hreject] at hmask

/-- R90, R95: ACCEPT of a valid request empties the selected slot, writes the latch, the owner, SPAN and `phase`, and touches
nothing else. -/
theorem spanIssued_accept {s : State} {req : Request} (h : validate s.params req = none) :
    SpanIssued s (accept s.sel req s) (spanOf s.params (req.latched s.params)) (req.latched s.params) := by
  rw [accept_of_valid h]
  exact {
    phase := rfl
    busy := rfl
    span := rfl
    latch := rfl
    rid := rfl
    slot := by simp [State.pendAt_emptySlot]
    otherSlots := fun r hne => by simp [State.pendAt_emptySlot, hne.symm]
    responses := fun r => by simp
    spanResult := rfl
    rest := ⟨rfl, rfl, rfl, rfl, by simp⟩ }

/-- R81, R90: the meaning of a ready call with a positive length and a valid or masked address is to issue the span of its
request, latched with the 14 low bits of its address. -/
theorem exec_issues_span {s : State} {i : Instr} (hready : s.Ready i) (hlen : 1 ≤ i.request.len)
    (haddr : i.request.addr ≤ Config.addrMax ∨ s.params.addrPolicy = .mask) :
    ∃ t, exec i s = .next t ∧
      SpanIssued s t (spanOf s.params i.request) { i.request with addr := i.request.addr &&& Config.addrMax } := by
  have hissued := spanIssued_accept (validate_eq_none_of_valid hlen haddr)
  rw [Request.latched_eq_and_addrMax haddr, spanOf_and_addrMax] at hissued
  exact ⟨_, exec_of_ready hready, hissued⟩

/-! ## The spans of the read family -/

/-- R60, R62, R88: the span of a read, byte by byte. -/
theorem spanOf_readRequest (p : Params) (mode : AddressMode) (addr : RegisterAddress) (len : Nat) :
    spanOf p (readRequest mode addr len) =
      [{ tx := some [0x03, flagByte mode ||| (addr.extractLsb' 8 6).setWidth 8, addr.extractLsb' 0 8], rx := false, len := 3 },
       { tx := none, rx := true, len := len }] := by
  rw [← addrHiByte_eq_extract, ← addrLoByte_eq_extract]
  rfl

end Machine

/-- Settles O9: ACCEPT issues the span of the read, whose bytes `spanOf_readRequest` names. -/
theorem readIncIssuesItsSpan : Obligations.ReadIncIssuesItsSpan := by
  intro s addr len hready hlen haddr
  have hissues := exec_issues_span hready hlen haddr
  rwa [Instr.request, spanOf_readRequest] at hissues

/-- Settles O13: PROBE's request is a read of 4 bytes at 0x0064, which is valid whatever the parameters. -/
theorem probeIssuesItsSpan : Obligations.ProbeIssuesItsSpan := by
  intro s hready
  exact exec_issues_span hready (by decide) (.inl (by decide))

end Sys2Proof
end

section
/-!
PROOFS. Errors and BUSY (60_exceptions.md R123): the step of an ACCEPT that takes a request, and of one that rejects it.
-/

namespace Sys2Proof.Machine

/-- R81, R95, at the step: in IDLE an ACCEPT of a filled slot is ACCEPT of the request that stands there. -/
theorem step_of_accept {s : State} {r : Nat} {i : Instr} (hadm : admission s.params = none) (hmove : s.nextMove = .accept r)
    (hp : s.phase = .idle) (hslot : s.pendAt r = some i) :
    step s = .next (accept r i.request (s.advance.select r)) := by
  have hready : (s.advance.select r).Ready i := ⟨by simpa using hp, by simpa using hslot⟩
  have hexec : step s = exec i (s.advance.select r) := by
    simp [step_eq_of_admitted hadm, hmove, performMove, acceptMove, hp, hslot]
  rw [hexec, exec_of_ready hready, State.select_sel]

/-- R86, R118, at the step: an ACCEPT of a request that validation rejects answers that request and stays in IDLE. -/
theorem step_of_rejected {s : State} {r : Nat} {i : Instr} {e : TransportError} (hadm : admission s.params = none)
    (hmove : s.nextMove = .accept r) (hp : s.phase = .idle) (hslot : s.pendAt r = some i)
    (hinvalid : validate s.params i.request = some e) :
    ∃ t, step s = .next t ∧ ErrorGiven (s.advance.select r) t e := by
  have hsel : (s.advance.select r).sel < (s.advance.select r).ports.length := by simpa using State.lt_of_pendAt hslot
  exact ⟨_, step_of_accept hadm hmove hp hslot, errorGiven_accept (by simpa using hinvalid) hsel⟩

end Sys2Proof.Machine

namespace Sys2Proof

open Machine

/-- Settles O25: a rejecting ACCEPT gives its error, an answered COMPLETE its response, and both leave BUSY clear. -/
theorem noErrorLeavesBusySet : Obligations.NoErrorLeavesBusySet := by
  constructor
  · intro s r i e hadm hmove hp hslot hinvalid
    obtain ⟨t, hstep, hgiven⟩ := step_of_rejected hadm hmove hp hslot hinvalid
    exact ⟨t, hstep, hgiven.busy, hgiven.response⟩
  · intro s a hinv hadm hmove hp ha
    obtain ⟨t, hstep, hgiven⟩ := step_of_complete hinv hadm hmove hp ha
    exact ⟨t, hstep, hgiven.busy⟩

end Sys2Proof
end

section
/-!
PROOFS. The address bits a header carries (30_encoding.md R74): its bytes decode to the 14 low bits, so requests alias exactly
where those agree (R141).
-/

namespace Sys2Proof

open Machine

/-- R60: below the mode flag, header byte 1 holds address bits 13 to 8. -/
theorem extract_addrHiByte (mode : AddressMode) (addr : RegisterAddress) :
    (addrHiByte mode addr).extractLsb' 0 6 = addr.extractLsb' 8 6 := by
  have hflag : (flagByte mode).extractLsb' 0 6 = 0#6 := by cases mode <;> rfl
  rw [addrHiByte_eq_extract, BitVec.extractLsb'_or, hflag, BitVec.zero_or, ← BitVec.setWidth_eq_extractLsb' (by decide),
    BitVec.setWidth_setWidth_of_le _ (by decide), BitVec.setWidth_eq]

/-- R74: the two address bytes of a header decode to the 14 low bits of the address, whatever the mode. -/
theorem decodeAddr_addrBytes (mode : AddressMode) (addr : RegisterAddress) :
    decodeAddr (addrHiByte mode addr) (addrLoByte addr) = addr &&& Config.addrMax := by
  have hjoin : addr.extractLsb' 8 6 ++ addr.extractLsb' 0 8 = addr.extractLsb' 0 14 :=
    BitVec.extractLsb'_append_extractLsb'_eq_extractLsb' rfl
  have hand : (addr &&& Config.addrMax).toNat = addr.toNat % 2 ^ 14 := Nat.and_two_pow_sub_one_eq_mod _ 14
  rw [decodeAddr_eq_extract, extract_addrHiByte, addrLoByte_eq_extract, hjoin]
  apply BitVec.eq_of_toNat_eq
  rw [hand, BitVec.toNat_setWidth, BitVec.extractLsb'_toNat, Nat.shiftRight_zero]
  omega

/-- R74, R141: two addresses under one header agree in their 14 low bits. -/
theorem and_addrMax_eq_of_hdr_eq {p : Params} {op : TransferDirection} {mode : AddressMode} {a b : RegisterAddress}
    (h : hdr p op mode a = hdr p op mode b) : a &&& Config.addrMax = b &&& Config.addrMax := by
  obtain ⟨-, hhi, hlo, -⟩ : _ ∧ addrHiByte mode a = addrHiByte mode b ∧ addrLoByte a = addrLoByte b ∧ _ := by
    simpa only [hdr, List.cons.injEq] using h
  rw [← decodeAddr_addrBytes mode a, hhi, hlo, decodeAddr_addrBytes]

namespace Machine

/-- R85: under `mask` every request goes on with the 14 low bits of its address. -/
theorem effectiveAddress_of_mask {p : Params} (h : p.addrPolicy = .mask) (addr : RegisterAddress) :
    effectiveAddress p addr = addr &&& Config.addrMax :=
  congrArg Request.addr (Request.latched_eq_and_addrMax (req := readRequest .increment addr 0) (.inr h))

/-- R85: under `reject` a request that passes goes on with its address as it is. -/
theorem effectiveAddress_of_reject {p : Params} (h : p.addrPolicy = .reject) (addr : RegisterAddress) :
    effectiveAddress p addr = addr := by
  simp [effectiveAddress, h]

end Machine

/-- Settles O16: under `mask` the latch keeps the 14 low bits alone; under `reject` the header decodes to the accepted
address, so it tells two of them apart. -/
theorem maskedAddressesAlias : Obligations.MaskedAddressesAlias := by
  refine ⟨?sameSpan, ?named, ?noAlias⟩
  case sameSpan =>
    intro p req a b hmask hbits
    have heff : effectiveAddress p a = effectiveAddress p b := by
      rw [effectiveAddress_of_mask hmask, effectiveAddress_of_mask hmask]
      exact hbits
    simp only [Request.latched, heff]
  case named =>
    intro p a hmask hmem
    rw [effectiveAddress_of_mask hmask]
    obtain rfl | rfl | rfl : a = 0x4064 ∨ a = 0x8064 ∨ a = 0xC064 := by simpa using hmem
    all_goals rfl
  case noAlias =>
    intro p req a b hreject hva hvb hhdr
    have ha : effectiveAddress p a ≤ Config.addrMax := effectiveAddress_le hva
    have hb : effectiveAddress p b ≤ Config.addrMax := effectiveAddress_le hvb
    rw [effectiveAddress_of_reject hreject] at ha hb
    rw [effectiveAddress_of_reject hreject, effectiveAddress_of_reject hreject] at hhdr
    calc a = a &&& Config.addrMax := (and_addrMax_of_le ha).symm
      _ = b &&& Config.addrMax := and_addrMax_eq_of_hdr_eq hhdr
      _ = b := and_addrMax_of_le hb

end Sys2Proof
end

section
/-!
PROOFS. Encoding and decoding (30_encoding.md): the header word is its fields side by side (R64), and the decoder is the encoder's
inverse on headers, on frames and on spans (R74).
-/

namespace Sys2Proof

open Machine

/-! ## The flag bits of header byte 1 -/

/-- Bits 15 and 14 of the header word: 01 for Increment, 10 for Decrement (R61). -/
def flagBits : AddressMode → BitVec 2
  | .increment => 0b01
  | .decrement => 0b10

/-- R60, R75: header byte 1 is the two flag bits above address bits 13 to 8, with no bit in common. -/
theorem addrHiByte_eq_append (mode : AddressMode) (addr : RegisterAddress) :
    addrHiByte mode addr = flagBits mode ++ addr.extractLsb' 8 6 := by
  have hflag : flagByte mode = flagBits mode ++ 0#6 := by cases mode <;> rfl
  have hbits : (addr.extractLsb' 8 6).setWidth 8 = 0#2 ++ addr.extractLsb' 8 6 :=
    BitVec.setWidth_eq_append (by decide)
  rw [addrHiByte_eq_extract, hflag, hbits, BitVec.or_append, BitVec.or_zero, BitVec.zero_or]

/-- R61, R74: header byte 1 shows the mode in its two top bits. -/
theorem extract_flags_addrHiByte (mode : AddressMode) (addr : RegisterAddress) :
    (addrHiByte mode addr).extractLsb' 6 2 = flagBits mode := by
  rw [addrHiByte_eq_append]
  exact BitVec.extractLsb'_append_eq_left

/-- R60: header byte 1 with the address shifted before it is masked. -/
theorem addrHiByte_eq_shift (mode : AddressMode) (addr : RegisterAddress) :
    addrHiByte mode addr = flagByte mode ||| ((addr >>> 8) &&& 0x3F).setWidth 8 := by
  rw [BitVec.setWidth_and]
  rfl

/-- Settles O2: the three bytes of `hdr`; byte 1 is the mode's flag bits above address bits 13 to 8. -/
theorem headerOpcodeAndFlagBits : Obligations.HeaderOpcodeAndFlagBits := by
  intro p op mode addr
  refine ⟨opcodeByte p op, addrHiByte mode addr, addrLoByte addr, rfl, ?_, ?_, extract_addrHiByte mode addr, ?_, ?_⟩
  all_goals rintro rfl
  · rfl
  · rfl
  · exact ⟨extract_flags_addrHiByte .increment addr, addrHiByte_eq_shift .increment addr⟩
  · exact ⟨extract_flags_addrHiByte .decrement addr, addrHiByte_eq_shift .decrement addr⟩

/-! ## The header word as a number -/

/-- Two words side by side as a number. -/
theorem toNat_append_eq_add {n m : Nat} (x : BitVec n) (y : BitVec m) : (x ++ y).toNat = x.toNat * 2 ^ m + y.toNat := by
  rw [BitVec.toNat_append, ← Nat.shiftLeft_add_eq_or_of_lt y.isLt, Nat.shiftLeft_eq]

/-- R64: the header word of a valid address as the sum of its three fields. -/
theorem headerWord_toNat (p : Params) (op : TransferDirection) (mode : AddressMode) {addr : RegisterAddress}
    (h : addr ≤ Config.addrMax) :
    (headerWord p op mode addr).toNat = (opcodeByte p op).toNat * 2 ^ 16 + (flagBits mode).toNat * 2 ^ 14 + addr.toNat := by
  have hlt : addr.toNat < 2 ^ 14 := Nat.lt_succ_of_le (BitVec.le_def.mp h)
  rw [headerWord, addrHiByte_eq_append, addrLoByte_eq_extract, toNat_append_eq_add, toNat_append_eq_add, toNat_append_eq_add,
    BitVec.extractLsb'_toNat, BitVec.extractLsb'_toNat, Nat.shiftRight_eq_div_pow, Nat.shiftRight_zero]
  omega

/-- Settles O3: the fields of `headerWord_toNat` for each direction and mode. -/
theorem headerWordIsTheSumOfItsFields : Obligations.HeaderWordIsTheSumOfItsFields := by
  intro p op mode addr haddr
  rw [headerWord_toNat p op mode haddr]
  cases op <;> cases mode <;> rfl

/-- R64, R74: a word is the header word of a valid address exactly where its three fields are those of the operands. -/
theorem headerWord_eq_iff (p : Params) (op : TransferDirection) (mode : AddressMode) {addr : RegisterAddress}
    (haddr : addr ≤ Config.addrMax) (h : HeaderWord) :
    headerWord p op mode addr = h ↔
      h.extractLsb' 16 8 = opcodeByte p op ∧ h.extractLsb' 14 2 = flagBits mode ∧ addr.toNat = h.toNat % 2 ^ 14 := by
  have hlt : addr.toNat < 2 ^ 14 := Nat.lt_succ_of_le (BitVec.le_def.mp haddr)
  have hword := headerWord_toNat p op mode haddr
  have hopcode := (opcodeByte p op).isLt
  have hflags := (flagBits mode).isLt
  simp only [← BitVec.toNat_inj, hword, BitVec.extractLsb'_toNat, Nat.shiftRight_eq_div_pow]
  have := h.isLt
  omega

/-- Settles O4: a word's fields pick the direction, the mode and the address whose header word it is. -/
theorem headerWordsAreExactlyTheFlaggedOnes : Obligations.HeaderWordsAreExactlyTheFlaggedOnes := by
  intro p h
  constructor
  · rintro ⟨op, mode, addr, haddr, hword⟩
    obtain ⟨hopcode, hflags, -⟩ := (headerWord_eq_iff p op mode haddr h).mp hword
    rw [hopcode, hflags]
    exact ⟨by cases op <;> simp [opcodeByte, Config.opcRead], by cases mode <;> simp [flagBits]⟩
  · rintro ⟨hopcode, hflags⟩
    have hop : ∃ op, h.extractLsb' 16 8 = opcodeByte p op := by
      rcases hopcode with hread | hwrite
      · exact ⟨.read, hread⟩
      · exact ⟨.write, hwrite⟩
    have hmode : ∃ mode, h.extractLsb' 14 2 = flagBits mode := by
      rcases hflags with hinc | hdec
      · exact ⟨.increment, hinc⟩
      · exact ⟨.decrement, hdec⟩
    obtain ⟨op, hop⟩ := hop
    obtain ⟨mode, hmode⟩ := hmode
    have hlt : h.toNat % 2 ^ 14 < 2 ^ 14 := Nat.mod_lt _ (by decide)
    have haddr : (BitVec.ofNat 16 (h.toNat % 2 ^ 14)).toNat = h.toNat % 2 ^ 14 := by
      rw [BitVec.toNat_ofNat]
      omega
    have hvalid : BitVec.ofNat 16 (h.toNat % 2 ^ 14) ≤ Config.addrMax :=
      BitVec.le_def.mpr (haddr.trans_le (Nat.le_of_lt_succ hlt))
    exact ⟨op, mode, _, hvalid, (headerWord_eq_iff p op mode hvalid h).mpr ⟨hop, hmode, haddr⟩⟩

/-! ## Headers -/

/-- R59, R74: with two different opcodes, byte 0 shows the direction. -/
theorem decodeOpcode_opcodeByte {p : Params} (hp : p.opcWrite ≠ Config.opcRead) (op : TransferDirection) :
    decodeOpcode p (opcodeByte p op) = some op := by
  cases op <;> simp [decodeOpcode, opcodeByte, hp]

/-- R74: header byte 1 shows the mode. -/
theorem decodeMode_addrHiByte (mode : AddressMode) (addr : RegisterAddress) :
    decodeMode (addrHiByte mode addr) = .ok mode := by
  rw [decodeMode_eq_extract, extract_flags_addrHiByte]
  cases mode <;> rfl

/-- R74: the header of every direction, mode and valid address decodes to them. -/
theorem decodeHeader_headerBytes {p : Params} (hp : p.opcWrite ≠ Config.opcRead) (op : TransferDirection) (mode : AddressMode)
    {addr : RegisterAddress} (haddr : addr ≤ Config.addrMax) :
    decodeHeader p (opcodeByte p op) (addrHiByte mode addr) (addrLoByte addr) =
      .ok { op := op, mode := mode, addr := addr } := by
  simp only [decodeHeader, decodeOpcode_opcodeByte hp, decodeMode_addrHiByte, decodeAddr_addrBytes, and_addrMax_of_le haddr]

/-- R59, R74: a byte that decodes to a direction is that direction's opcode. -/
theorem eq_opcodeByte_of_decodeOpcode {p : Params} {b : Byte} {op : TransferDirection} (h : decodeOpcode p b = some op) :
    b = opcodeByte p op := by
  unfold decodeOpcode at h
  split at h
  · cases h
    assumption
  · split at h
    · cases h
      assumption
    · cases h

/-- R61, R74: a byte that decodes to a mode has that mode's flag bits. -/
theorem extract_flags_of_decodeMode {b : Byte} {mode : AddressMode} (h : decodeMode b = .ok mode) :
    b.extractLsb' 6 2 = flagBits mode := by
  rw [decodeMode_eq_extract] at h
  split at h <;> cases h <;> assumption

/-- R74: a decoded address is a valid one. -/
theorem decodeAddr_le (b1 b2 : Byte) : decodeAddr b1 b2 ≤ Config.addrMax := by
  rw [BitVec.le_def, decodeAddr_toNat, Config.addrMax_toNat, Config.addrValidBits]
  omega

/-- R60, R74: the address two header bytes decode to has the low bits of byte 1 as its bits 13 to 8. -/
theorem extract_hi_decodeAddr (b1 b2 : Byte) : (decodeAddr b1 b2).extractLsb' 8 6 = b1.extractLsb' 0 6 := by
  apply BitVec.eq_of_toNat_eq
  rw [BitVec.extractLsb'_toNat, BitVec.extractLsb'_toNat, decodeAddr_toNat, Nat.shiftRight_eq_div_pow, Nat.shiftRight_zero]
  omega

/-- R62, R74: and byte 2 as its bits 7 to 0. -/
theorem addrLoByte_decodeAddr (b1 b2 : Byte) : addrLoByte (decodeAddr b1 b2) = b2 := by
  apply BitVec.eq_of_toNat_eq
  rw [addrLoByte_toNat, decodeAddr_toNat]
  omega

/-- R60, R74: header byte 1 is made again from the mode and the address it decodes to. -/
theorem addrHiByte_decodeAddr {b1 : Byte} {mode : AddressMode} (h : decodeMode b1 = .ok mode) (b2 : Byte) :
    addrHiByte mode (decodeAddr b1 b2) = b1 := by
  rw [addrHiByte_eq_append, extract_hi_decodeAddr, ← extract_flags_of_decodeMode h]
  exact BitVec.extractLsb'_append_extractLsb'

/-- R74: a header that decodes is the header of what it decodes to, a valid address among it. -/
theorem hdr_of_decodeHeader {p : Params} {b0 b1 b2 : Byte} {h : HeaderFields} (hd : decodeHeader p b0 b1 b2 = .ok h) :
    hdr p h.op h.mode h.addr = [b0, b1, b2] ∧ h.addr ≤ Config.addrMax := by
  unfold decodeHeader at hd
  split at hd
  · cases hd
  · next op hop =>
    split at hd
    · cases hd
    · next mode hmode =>
      cases hd
      refine ⟨?_, decodeAddr_le b1 b2⟩
      rw [hdr, ← eq_opcodeByte_of_decodeOpcode hop, addrHiByte_decodeAddr hmode, addrLoByte_decodeAddr]

/-! ## Frames -/

/-- R63, R74: a header and a data phase that is not empty decode to the call the header names. -/
theorem decode_hdr_append {p : Params} (hp : p.opcWrite ≠ Config.opcRead) (op : TransferDirection) (mode : AddressMode)
    {addr : RegisterAddress} (haddr : addr ≤ Config.addrMax) {data : List Byte} (hdata : 1 ≤ data.length) :
    decode p (hdr p op mode addr ++ data) = .ok (HeaderFields.call { op := op, mode := mode, addr := addr } data) := by
  cases data with
  | nil => cases hdata
  | cons d ds => simp [hdr, decode, decodeHeader_headerBytes hp op mode haddr]

/-- R63: the data phase of a call's frame: what the peripheral clocks out for a read, the payload for a write. -/
def Instr.dataPhase (i : Instr) (rx : List Byte) : List Byte :=
  match i.direction with
  | .read => rx
  | .write => i.payload

theorem encode_eq (p : Params) (i : Instr) (rx : List Byte) :
    encode p i rx = hdr p i.direction i.mode i.address ++ i.dataPhase rx := rfl

/-- R63: the data phase has as many bytes as the call names. -/
theorem Instr.length_dataPhase {i : Instr} {rx : List Byte} (h : rx.length = i.byteCount) :
    (i.dataPhase rx).length = i.byteCount := by
  cases i
  case writeInc => rfl
  case writeDec => rfl
  all_goals exact h

/-- R71, R78: a call's header fields and data phase are those of the core operation it stands for. -/
theorem Instr.call_dataPhase {i : Instr} {rx : List Byte} (h : rx.length = i.byteCount) :
    HeaderFields.call { op := i.direction, mode := i.mode, addr := i.address } (i.dataPhase rx) = i.expand := by
  cases i
  case readInc addr len => exact congrArg (Instr.readInc addr) h
  case readDec addr len => exact congrArg (Instr.readDec addr) h
  case writeInc => rfl
  case writeDec => rfl
  case probe => exact congrArg (Instr.readInc Config.addrByteTest) h

/-- Settles O5: the decoder reads the header back, and the data phase by its length. -/
theorem decodeInvertsEncode : Obligations.DecodeInvertsEncode := by
  intro p i rx hp hwf hrx
  obtain ⟨-, haddr, hcount⟩ : i.expressible p = true ∧ i.address ≤ Config.addrMax ∧ 1 ≤ i.byteCount := by
    simpa [Instr.wellFormed, Instr.encodable] using hwf
  have hdata : 1 ≤ (i.dataPhase rx).length := (Instr.length_dataPhase hrx).symm ▸ hcount
  rw [encode_eq, decode_hdr_append hp i.direction i.mode haddr hdata, Instr.call_dataPhase hrx]

/-- R74: bytes that decode are a header of a valid address and a data phase that is not empty. -/
theorem decode_cases {p : Params} {bytes : List Byte} {i : Instr} (h : decode p bytes = .ok i) :
    ∃ (f : HeaderFields) (data : List Byte), f.addr ≤ Config.addrMax ∧ 1 ≤ data.length ∧
      bytes = hdr p f.op f.mode f.addr ++ data ∧ i = f.call data := by
  unfold decode at h
  split at h
  · next b0 b1 b2 data =>
    split at h
    · cases h
    · next f hf =>
      obtain ⟨hhdr, haddr⟩ := hdr_of_decodeHeader hf
      split at h
      · cases h
      · next d ds =>
        cases h
        exact ⟨f, d :: ds, haddr, by simp, by rw [hhdr]; rfl, rfl⟩
  · cases h

/-- R63, R71: what is known of the core call with given header fields and data phase. -/
theorem HeaderFields.call_spec (f : HeaderFields) (data : List Byte) :
    (f.call data).address = f.addr ∧ (f.call data).byteCount = data.length ∧ (f.call data).expand = f.call data ∧
      ∀ p, encode p (f.call data) data = hdr p f.op f.mode f.addr ++ data := by
  obtain ⟨op, mode, addr⟩ := f
  cases op <;> cases mode <;> exact ⟨rfl, rfl, rfl, fun _ => rfl⟩

/-- Settles O6: the decoder accepts a header of a valid address before data, which is the frame of its answer. -/
theorem encodeInvertsDecode : Obligations.EncodeInvertsDecode := by
  intro p bytes i h
  obtain ⟨f, data, haddr, hdata, rfl, rfl⟩ := decode_cases h
  obtain ⟨haddress, hcount, hexpand, hencode⟩ := f.call_spec data
  have hdrop : (hdr p f.op f.mode f.addr ++ data).drop 3 = data := rfl
  rw [hdrop]
  refine ⟨?_, hexpand, hcount.symm, hencode p⟩
  simpa [Instr.encodable, haddress, hcount] using ⟨haddr, hdata⟩

/-! ## Spans -/

namespace Machine

/-- R66, R67, R74: the span of a consistent request with a valid address and at least one byte is read back as that request. -/
theorem decodeSpan_spanOf {p : Params} {req : Request} (hp : p.opcWrite ≠ Config.opcRead) (hcons : req.consistent = true)
    (hlen : 1 ≤ req.len) (haddr : req.addr ≤ Config.addrMax) : decodeSpan p (spanOf p req) = .ok req.call := by
  have hhdr := decodeHeader_headerBytes hp req.op req.mode haddr
  have hdata : decodeDataSegment { op := req.op, mode := req.mode, addr := req.addr } (dataSegment req) = .ok req.call := by
    obtain ⟨op, mode, addr, len, wdata⟩ := req
    have hne : len ≠ 0 := Nat.one_le_iff_ne_zero.mp hlen
    cases op with
    | read => cases mode <;> simp [decodeDataSegment, dataSegment, hne, HeaderFields.call, Request.call]
    | write =>
      obtain rfl : len = wdata.length := by simpa [Request.consistent] using hcons
      cases mode <;> simp_all [decodeDataSegment, dataSegment, HeaderFields.call, Request.call]
  simp [decodeSpan, spanOf, headerSegment, hdr, Config.segPerSpan, hhdr, hdata]

end Machine

/-- Settles O7: `decodeSpan_spanOf`, with the literals of the statement for the constants. -/
theorem spanDecodesToItsRequest : Obligations.SpanDecodesToItsRequest := by
  intro p req hp hcons hlen haddr
  exact decodeSpan_spanOf hp hcons hlen haddr

/-- Settles O8: the decoder evaluated on the four frames. -/
theorem tableWordsDecode : Obligations.TableWordsDecode := by
  refine ⟨?_, ?_, ?_, ?_⟩ <;> decide

end Sys2Proof
end

section
/-!
PROOFS. One move of one agent, every way to a next state (10_state.md R12 to R15, 40_transaction.md R95), and what every move keeps:
the parameters, the agenda, and the invariant of the system (R13, R26, R28, R29, R31, R33, R34, R39).
-/

namespace Sys2Proof.Machine

/-! ## Every way to a next state -/

/-- The move is not possible in this state, so it changes nothing (log entry 9). -/
def State.waits (s : State) : Move → Prop
  | .rewrite r _ => r < s.ports.length ∧ s.pendAt r = none
  | .accept r => s.phase = .xfer ∨ s.pendAt r = none
  | .answer _ => s.span = none
  | .complete => s.phase = .idle ∨ s.spanResult = none ∨ s.latch ≠ s.latch.call.request.latched s.params
  | .present _ _ => False
  | .take _ => False
  | .reset => False

/-- What a move may lead to: one constructor for each way to a next state. -/
inductive MoveEffect (s : State) : Move → State → Prop
  | wait {m : Move} (h : s.waits m) : MoveEffect s m s
  | present {r : Nat} {i : Instr} (hr : r < s.ports.length) (hfree : s.blocked r = false)
      (hi : i.expressible s.params = true) : MoveEffect s (.present r i) (s.fillSlot r i)
  | rewrite {r : Nat} {data : List Byte} {i i' : Instr} (hslot : s.pendAt r = some i)
      (hi : rewritePayload data i = some i') : MoveEffect s (.rewrite r data) (s.fillSlot r i')
  | take (r : Nat) : MoveEffect s (.take r) (s.dropResponse r)
  | reject {r : Nat} {i : Instr} {e : TransportError} (hp : s.phase = .idle) (hslot : s.pendAt r = some i)
      (he : validate s.params i.request = some e) :
      MoveEffect s (.accept r) (raiseError r e ((s.select r).emptySlot r))
  | issue {r : Nat} {i : Instr} (hp : s.phase = .idle) (hslot : s.pendAt r = some i)
      (hv : validate s.params i.request = none) :
      MoveEffect s (.accept r) (issue r i.request ((s.select r).emptySlot r))
  | answer {a : Answer} {sp : Span} {i : Instr} (hsp : s.span = some sp) (hd : decodeSpan s.params sp = .ok i)
      (hfits : a.fits s.params sp = true) : MoveEffect s (.answer a) (s.putAnswer a)
  | complete {a : Answer} (hp : s.phase = .xfer) (hl : s.latch = s.latch.call.request.latched s.params)
      (ha : s.spanResult = some a) :
      MoveEffect s .complete (respond s.rid (responseTo s.latch.op a) s.takeAnswer)
  | reset (hp : s.phase = .idle) : MoveEffect s .reset (State.construct s.params s.agenda s.tick)

theorem presentMove_iff {r : Nat} {i : Instr} {s t : State} :
    presentMove r i s = .next t ↔ MoveEffect s (.present r i) t := by
  constructor
  · intro h
    obtain ⟨hr, hfree, hi, rfl⟩ := presentMove_cases h
    exact .present hr hfree hi
  · intro h
    cases h with
    | wait h => exact h.elim
    | present hr hfree hi => simp [presentMove, Nat.not_le.mpr hr, hfree, hi]

theorem rewriteMove_iff {r : Nat} {data : List Byte} {s t : State} :
    rewriteMove r data s = .next t ↔ MoveEffect s (.rewrite r data) t := by
  constructor
  · intro h
    unfold rewriteMove at h
    split at h
    · cases h
    · next hr =>
      split at h
      · next hnone =>
        cases h
        exact .wait ⟨Nat.not_le.mp hr, hnone⟩
      · next i hsome =>
        split at h
        · cases h
        · next i' hi =>
          cases h
          exact .rewrite hsome hi
  · intro h
    cases h with
    | wait h => simp [rewriteMove, Nat.not_le.mpr h.1, h.2]
    | rewrite hslot hi => simp [rewriteMove, Nat.not_le.mpr (State.lt_of_pendAt hslot), hslot, hi]

theorem acceptMove_iff {r : Nat} {s t : State} : acceptMove r s = .next t ↔ MoveEffect s (.accept r) t := by
  constructor
  · intro h
    rcases acceptMove_cases h with ⟨rfl, hwait⟩ | ⟨i, hp, hslot, rfl⟩
    · exact .wait hwait
    · rcases accept_cases r i.request (s.select r) with ⟨e, he, heq⟩ | ⟨hv, heq⟩ <;> rw [heq]
      · exact .reject hp hslot he
      · exact .issue hp hslot hv
  · have htaken {i : Instr} (hp : s.phase = .idle) (hslot : s.pendAt r = some i) :
        acceptMove r s = .next (accept r i.request (s.select r)) := by
      have hready : (s.select r).Ready i := ⟨hp, hslot⟩
      simp [acceptMove, hp, hslot, exec_of_ready hready]
    intro h
    cases h with
    | wait h =>
      rcases h with hp | hslot
      · simp [acceptMove, hp]
      · cases hp : s.phase <;> simp [acceptMove, hp, hslot]
    | reject hp hslot he => rw [htaken hp hslot, accept_of_invalid (s := s.select r) he]
    | issue hp hslot hv => rw [htaken hp hslot, accept_of_valid (s := s.select r) hv]

theorem answerMove_iff {a : Answer} {s t : State} : answerMove a s = .next t ↔ MoveEffect s (.answer a) t := by
  constructor
  · intro h
    rcases answerMove_cases h with ⟨hnone, rfl⟩ | ⟨sp, i, hsp, hd, hfits, rfl⟩
    · exact .wait hnone
    · exact .answer hsp hd hfits
  · intro h
    cases h with
    | wait h => simp [answerMove, show s.span = none from h]
    | answer hsp hd hfits => simp [answerMove, hsp, hd, hfits]

theorem completeMove_iff {s t : State} : completeMove s = .next t ↔ MoveEffect s .complete t := by
  by_cases hwait : s.waits .complete
  · have hself : completeMove s = .next s := by
      rcases hwait with hp | hnone | hl
      · exact completeMove_eq_self (.inl hp)
      · exact completeMove_eq_self (.inr hnone)
      · cases hp : s.phase
        · exact completeMove_eq_self (.inl hp)
        · simp [completeMove, hp, exec_eq, transactionStep, hl]
    rw [hself]
    constructor
    · rintro ⟨⟩
      exact .wait hwait
    · intro h
      cases h with
      | wait => rfl
      | complete hp hl ha => simp [State.waits, hp, ha, ← hl] at hwait
  · obtain ⟨hp, ha, hl⟩ : s.phase ≠ .idle ∧ s.spanResult ≠ none ∧ s.latch = s.latch.call.request.latched s.params := by
      simpa [State.waits] using hwait
    have hp : s.phase = .xfer := by
      cases h : s.phase with
      | idle => exact absurd h hp
      | xfer => rfl
    obtain ⟨a, ha⟩ := Option.ne_none_iff_exists'.mp ha
    have hresp : completeMove s = .next (respond s.rid (responseTo s.latch.op a) s.takeAnswer) := by
      rw [completeMove, hp]
      simp only [exec_eq]
      rw [transactionStep_xfer hp hl, complete_of_answer ha]
    rw [hresp]
    constructor
    · rintro ⟨⟩
      exact .complete hp hl ha
    · intro h
      cases h with
      | wait h => exact (hwait h).elim
      | complete _ _ hb =>
        cases ha.symm.trans hb
        rfl

theorem resetMove_iff {s t : State} : resetMove s = .next t ↔ MoveEffect s .reset t := by
  constructor
  · intro h
    obtain ⟨hp, rfl⟩ := resetMove_cases h
    exact .reset hp
  · intro h
    cases h with
    | wait h => exact h.elim
    | reset hp => simp [resetMove, hp]

/-- R12, R95: a move leads to a next state in the ways of `MoveEffect` and in no other. -/
theorem performMove_iff {m : Move} {s t : State} : performMove m s = .next t ↔ MoveEffect s m t := by
  cases m with
  | present r i => exact presentMove_iff
  | rewrite r data => exact rewriteMove_iff
  | take r =>
    constructor
    · rintro ⟨⟩
      exact .take r
    · intro h
      cases h with
      | wait h => exact h.elim
      | take => rfl
  | accept r => exact acceptMove_iff
  | answer a => exact answerMove_iff
  | complete => exact completeMove_iff
  | reset => exact resetMove_iff

/-- A step leads to a next state exactly where the parameters are admitted and the next move leads there. -/
theorem step_iff {s t : State} : step s = .next t ↔ admission s.params = none ∧ MoveEffect s.advance s.nextMove t := by
  constructor
  · intro h
    obtain ⟨hadm, hmove⟩ := step_cases h
    exact ⟨hadm, performMove_iff.mp hmove⟩
  · rintro ⟨hadm, heffect⟩
    rw [step_eq_of_admitted hadm, performMove_iff.mpr heffect]

/-- A move that is not possible is a step that changes nothing but the agents' choices (log entry 9). -/
theorem step_of_waits {s : State} (hadm : admission s.params = none) (h : s.advance.waits s.nextMove) :
    step s = .next s.advance :=
  step_iff.mpr ⟨hadm, .wait h⟩

/-! ## What every move keeps -/

section Keeps

variable {s t : State} {m : Move}

/-- R7, R22: the parameters. -/
theorem MoveEffect.params (h : MoveEffect s m t) : t.params = s.params := by
  cases h <;> rfl

/-- Log entries 1 and 18: the moves that are still to come. -/
theorem MoveEffect.agenda (h : MoveEffect s m t) : t.agenda = s.agenda := by
  cases h <;> rfl

/-- R29, R39: one port for each requester. -/
theorem MoveEffect.portCount (h : MoveEffect s m t) (hs : s.ports.length = s.params.nReq) :
    t.ports.length = s.params.nReq := by
  cases h with
  | reset => simp
  | _ => simpa [raiseError_ports, respond_ports] using hs

end Keeps

/-! ## The invariant -/

section Invariant

variable {s : State} {r : Nat} {i : Instr}

theorem State.not_blocked_iff : s.blocked r = false ↔
    s.pendAt r = none ∧ s.rspAt r = none ∧ (s.phase = .xfer → s.rid ≠ r) := by
  simp [State.blocked, State.busy, and_assoc]

/-- R36, R39: the state after construction meets the invariant. -/
theorem State.inv_construct (p : Params) (ms : List Move) (n : Nat) : (State.construct p ms n).Inv where
  portCount := by simp
  oneOutstanding _ _ _ := State.rspAt_construct ..
  expressible r j h := by simp [State.pendAt_construct] at h
  codes r c h := by simp [State.rspAt_construct] at h
  idleQuiet _ := ⟨rfl, rfl⟩
  flight h := by cases h

/-- R13, R31: a call put into the slot of a requester with no untaken response and no transaction in flight. -/
theorem State.Inv.fillSlot (h : s.Inv) (hrsp : s.rspAt r = none) (hrid : s.phase = .xfer → s.rid ≠ r)
    (hi : i.expressible s.params = true) : (s.fillSlot r i).Inv where
  portCount := by simpa using h.portCount
  oneOutstanding q j hj := by
    rw [State.rspAt_fillSlot]
    rw [State.pendAt_fillSlot] at hj
    split at hj
    · next hq => exact hq.1 ▸ hrsp
    · exact h.oneOutstanding q j hj
  expressible q j hj := by
    rw [State.pendAt_fillSlot] at hj
    split at hj
    · cases hj
      exact hi
    · exact h.expressible q j hj
  codes q c hc := h.codes q c (by simpa using hc)
  idleQuiet := h.idleQuiet
  flight hp := { h.flight hp with
    ownerSlot := by simpa [State.pendAt_fillSlot, (hrid hp).symm] using (h.flight hp).ownerSlot
    ownerRsp := by simpa using (h.flight hp).ownerRsp }

/-- R13: a response is taken. -/
theorem State.Inv.dropResponse (h : s.Inv) (r : Nat) : (s.dropResponse r).Inv where
  portCount := by simpa using h.portCount
  oneOutstanding q j hj := by
    rw [State.rspAt_dropResponse]
    split
    · rfl
    · exact h.oneOutstanding q j (by simpa using hj)
  expressible q j hj := h.expressible q j (by simpa using hj)
  codes q c hc := by
    rw [State.rspAt_dropResponse] at hc
    split at hc
    · cases hc
    · exact h.codes q c hc
  idleQuiet := h.idleQuiet
  flight hp := { h.flight hp with
    ownerSlot := by simpa using (h.flight hp).ownerSlot
    ownerRsp := by simp [State.rspAt_dropResponse, (h.flight hp).ownerRsp] }

/-- R81: a slot is emptied in IDLE. -/
theorem State.Inv.emptySlot (h : s.Inv) (hp : s.phase = .idle) (r : Nat) : (s.emptySlot r).Inv where
  portCount := by simpa using h.portCount
  oneOutstanding q j hj := by
    rw [State.pendAt_emptySlot] at hj
    split at hj
    · cases hj
    · simpa using h.oneOutstanding q j hj
  expressible q j hj := by
    rw [State.pendAt_emptySlot] at hj
    split at hj
    · cases hj
    · exact h.expressible q j hj
  codes q c hc := h.codes q c (by simpa using hc)
  idleQuiet := h.idleQuiet
  flight hx := by cases hp.symm.trans hx

/-- R83: the arbiter's choice is no part of the invariant. -/
theorem State.Inv.select (h : s.Inv) (r : Nat) : (s.select r).Inv where
  portCount := h.portCount
  oneOutstanding := h.oneOutstanding
  expressible := h.expressible
  codes := h.codes
  idleQuiet := h.idleQuiet
  flight hp := { h.flight hp with }

/-- R9, R93: a response, any code of it one of IOCODE, to a requester with an empty slot, once nothing is on SPAN. -/
theorem State.Inv.respond {x : Response} (h : s.Inv) (hslot : s.pendAt r = none)
    (hcode : ∀ code, x = .err (.ioFailure code) → s.params.admitsCode code = true) (hspan : s.span = none) :
    (respond r x s.takeAnswer).Inv where
  portCount := by simpa [respond_ports] using h.portCount
  oneOutstanding q j hj := by
    have hq : s.pendAt q = some j := by simpa using hj
    rw [rspAt_respond, if_neg]
    · exact h.oneOutstanding q j hq
    · rintro ⟨rfl, -⟩
      cases hslot.symm.trans hq
  expressible q j hj := h.expressible q j (by simpa using hj)
  codes q c hc := by
    rw [rspAt_respond] at hc
    split at hc
    · cases hc
      exact hcode c rfl
    · exact h.codes q c hc
  idleQuiet _ := ⟨hspan, rfl⟩
  flight hx := by cases hx

/-- Without an answer there is none to take. -/
theorem State.takeAnswer_eq_self (h : s.spanResult = none) : s.takeAnswer = s := by
  rw [State.takeAnswer, ← h]

/-- R90: the span of a valid request from an emptied slot is issued. -/
theorem State.Inv.issue (h : s.Inv) (hp : s.phase = .idle) (hr : r < s.ports.length) (hslot : s.pendAt r = none)
    (hrsp : s.rspAt r = none) (hi : i.expressible s.params = true) (hv : validate s.params i.request = none) :
    (issue r i.request s).Inv where
  portCount := h.portCount
  oneOutstanding := h.oneOutstanding
  expressible := h.expressible
  codes := h.codes
  idleQuiet hx := by cases hx
  flight _ := {
    owner := h.portCount ▸ hr
    ownerSlot := hslot
    ownerRsp := hrsp
    consistent := Instr.consistent_request i
    lenPositive := Nat.one_le_iff_ne_zero.mpr (validate_eq_none.mp hv).1
    lenAdmitted := by simpa [Instr.len_request, Instr.expressible] using hi
    addrValid := effectiveAddress_le hv
    channels := .inl ⟨rfl, (h.idleQuiet hp).2⟩ }

/-- R15, R34: the span in flight gets an answer that fits it. -/
theorem State.Inv.putAnswer {a : Answer} {sp : Span} (h : s.Inv) (hsp : s.span = some sp) (hfits : a.fits s.params sp = true) :
    (s.putAnswer a).Inv where
  portCount := h.portCount
  oneOutstanding := h.oneOutstanding
  expressible := h.expressible
  codes := h.codes
  idleQuiet hp := by simp [(h.idleQuiet hp).1] at hsp
  flight hp := { h.flight hp with
    channels := by
      rcases (h.flight hp).channels with ⟨hspan, -⟩ | ⟨hnone, -⟩
      · cases hspan.symm.trans hsp
        exact .inr ⟨rfl, a, rfl, hfits⟩
      · cases hnone.symm.trans hsp }

/-- The code of an error of validation is none. -/
theorem code_of_validate {p : Params} {req : Request} {e : TransportError} (h : validate p req = some e) (code : IoCode) :
    Response.err e ≠ .err (.ioFailure code) := by
  rintro ⟨⟩
  unfold validate at h
  split at h
  · cases h
  · split at h <;> cases h

/-- R92: the code of a response is the code of the answer. -/
theorem answer_of_responseTo {op : TransferDirection} {a : Answer} {code : IoCode}
    (h : responseTo op a = .err (.ioFailure code)) : a = .err code := by
  cases a with
  | ok rx => cases op <;> cases h
  | err c =>
    cases h
    rfl

/-- Every move keeps the invariant. -/
theorem MoveEffect.inv {m : Move} {t : State} (h : MoveEffect s m t) (hs : s.Inv) : t.Inv := by
  cases h with
  | wait => exact hs
  | present _ hfree hi =>
    obtain ⟨-, hrsp, hrid⟩ := State.not_blocked_iff.mp hfree
    exact hs.fillSlot hrsp hrid hi
  | rewrite hslot hi =>
    refine hs.fillSlot (hs.oneOutstanding _ _ hslot) (fun hp hrid => ?_) ?_
    · subst hrid
      cases (hs.flight hp).ownerSlot.symm.trans hslot
    · rw [Instr.expressible, rewritePayload_byteCount hi]
      exact hs.expressible _ _ hslot
  | take r => exact hs.dropResponse r
  | @reject r i e hp hslot he =>
    have hquiet := hs.idleQuiet hp
    have hemptied := ((hs.select r).emptySlot hp r).respond (r := r) (by simp [State.pendAt_emptySlot])
      (fun code hcode => (code_of_validate he code hcode).elim) hquiet.1
    rwa [State.takeAnswer_eq_self (by exact hquiet.2)] at hemptied
  | @issue r i hp hslot hv =>
    exact ((hs.select r).emptySlot hp r).issue hp (by simpa using State.lt_of_pendAt hslot) (by simp [State.pendAt_emptySlot])
      (by simpa using hs.oneOutstanding r i hslot) (hs.expressible r i hslot) hv
  | answer hsp _ hfits => exact hs.putAnswer hsp hfits
  | complete hp _ ha =>
    obtain ⟨hspan, hfits⟩ := (hs.flight hp).fits_of_answer ha
    refine hs.respond (hs.flight hp).ownerSlot (fun code hcode => ?_) hspan
    obtain rfl := answer_of_responseTo hcode
    exact hfits
  | reset => exact State.inv_construct ..

/-- Every step keeps the invariant. -/
theorem State.Inv.step {t : State} (h : s.Inv) (hstep : step s = .next t) : t.Inv :=
  (step_iff.mp hstep).2.inv h.advance

end Invariant

end Sys2Proof.Machine

namespace Sys2Proof

open Machine

/-- Settles O36: one lemma for each operation, put together in `MoveEffect.inv`. -/
theorem stepKeepsTheInvariant : Obligations.StepKeepsTheInvariant := by
  intro s t hinv hstep
  exact hinv.step hstep

/-- Settles O38: no move writes the parameters, and only a reset makes ports, one for each requester. -/
theorem parametersNeverChange : Obligations.ParametersNeverChange := by
  intro s t hstep
  obtain ⟨-, heffect⟩ := step_iff.mp hstep
  refine ⟨by simpa using heffect.params, fun hcount => ?_⟩
  simpa using heffect.portCount (by simpa using hcount)

end Sys2Proof
end

section
/-!
PROOFS. Safety and waiting (20_memory.md R51, R55; 40_transaction.md R81; 60_exceptions.md R132, R140): where a span, an empty slot or
a change of BUSY can come from, each read off the ways a move can lead to a next state; and runs in which a request or a span waits.
-/

namespace Sys2Proof.Machine

/-! ## What a move can change -/

section Changes

variable {s t : State} {m : Move}

/-- R51, R80: a span on SPAN stood there, or a valid request was accepted in IDLE and it is that request's. -/
theorem MoveEffect.span_cases {sp : Span} (h : MoveEffect s m t) (ht : t.span = some sp) :
    s.span = some sp ∨ ∃ r i, m = .accept r ∧ s.phase = .idle ∧ s.pendAt r = some i ∧
      validate s.params i.request = none ∧ sp = spanOf s.params (i.request.latched s.params) := by
  cases h with
  | issue hp hslot hv => exact .inr ⟨_, _, rfl, hp, hslot, hv, (Option.some.inj ht).symm⟩
  | answer => cases ht
  | reset => cases ht
  | _ => exact .inl ht

/-- R27: `phase` goes from IDLE to XFER where a filled slot is accepted and its span is issued. -/
theorem MoveEffect.enters_xfer (h : MoveEffect s m t) (hs : s.phase = .idle) (ht : t.phase = .xfer) :
    ∃ r i, m = .accept r ∧ s.pendAt r = some i ∧ t.span = some (spanOf s.params (i.request.latched s.params)) := by
  cases h with
  | issue _ hslot => exact ⟨_, _, rfl, hslot, rfl⟩
  | reject => cases ht
  | complete => cases ht
  | reset => cases ht
  | _ => cases hs.symm.trans ht

/-- R27, R140: `phase` goes from XFER to IDLE where COMPLETE has an answer. -/
theorem MoveEffect.leaves_xfer (h : MoveEffect s m t) (hs : s.phase = .xfer) (ht : t.phase = .idle) :
    m = .complete ∧ s.spanResult ≠ none := by
  cases h with
  | complete _ _ ha => exact ⟨rfl, by simp [ha]⟩
  | reject hp => cases hp.symm.trans hs
  | issue => cases ht
  | reset hp => cases hp.symm.trans hs
  | _ => cases hs.symm.trans ht

/-- R81: a filled slot stays filled, but for its ACCEPT in IDLE and a reset. -/
theorem MoveEffect.slot_cases {r : Nat} {i : Instr} (h : MoveEffect s m t) (hs : s.pendAt r = some i) :
    (∃ i', t.pendAt r = some i') ∨ (s.phase = .idle ∧ (m = .accept r ∨ m = .reset)) := by
  cases h with
  | present | rewrite =>
    rw [State.pendAt_fillSlot]
    split
    · exact .inl ⟨_, rfl⟩
    · exact .inl ⟨i, hs⟩
  | @reject q _ _ hp =>
    by_cases hq : q = r
    · exact .inr ⟨hp, .inl (congrArg Move.accept hq)⟩
    · exact .inl ⟨i, by simpa [State.pendAt_emptySlot, hq] using hs⟩
  | @issue q _ hp =>
    by_cases hq : q = r
    · exact .inr ⟨hp, .inl (congrArg Move.accept hq)⟩
    · exact .inl ⟨i, by simpa [State.pendAt_emptySlot, hq] using hs⟩
  | reset hp => exact .inr ⟨hp, .inr rfl⟩
  | _ => exact .inl ⟨i, by simpa using hs⟩

end Changes

/-- R81, R95: ACCEPT(r) empties slot `r` and no other. -/
theorem pendAt_accept (s : State) (r q : Nat) (req : Request) :
    (accept r req s).pendAt q = if r = q then none else s.pendAt q := by
  rcases accept_cases r req s with ⟨e, -, h⟩ | ⟨-, h⟩ <;> rw [h] <;> simp [State.pendAt_emptySlot]

/-- R81: with ACCEPT next in XFER, or of an empty slot, nothing but the agents' choices changes. -/
theorem step_of_impossible_accept {s : State} {r : Nat} (hadm : admission s.params = none) (hmove : s.nextMove = .accept r)
    (h : s.phase = .xfer ∨ s.pendAt r = none) : step s = .next s.advance := by
  refine step_of_waits hadm ?_
  rw [hmove]
  simpa [State.waits] using h

theorem State.busy_iff {s : State} : s.busy = true ↔ s.phase = .xfer := by
  simp [State.busy]

theorem State.not_busy_iff {s : State} : s.busy = false ↔ s.phase = .idle := by
  cases h : s.phase <;> simp [State.busy, h]

end Sys2Proof.Machine

namespace Sys2Proof

open Machine

/-- Settles O22: an impossible ACCEPT waits, a possible one is `accept`, and `MoveEffect.slot_cases` names every other way. -/
theorem acceptanceNeedsIdleAndAFilledSlot : Obligations.AcceptanceNeedsIdleAndAFilledSlot := by
  intro s hadm
  refine ⟨fun r hmove hwait => step_of_impossible_accept hadm hmove hwait, fun r i hmove hp hslot => ?_,
    fun r i t hstep hslot hempty => ?_⟩
  · refine ⟨_, step_of_accept hadm hmove hp hslot, by simp [pendAt_accept], fun q hq => ?_⟩
    simp [pendAt_accept, hq.symm]
  · obtain ⟨-, heffect⟩ := step_iff.mp hstep
    rcases heffect.slot_cases (r := r) (i := i) (by simpa using hslot) with ⟨i', hi'⟩ | hemptied
    · cases hempty.symm.trans hi'
    · simpa using hemptied

/-- Settles O24: BUSY is `phase = XFER`, so its changes are the ways into and out of XFER. -/
theorem busyIsSetByAcceptAndClearedByComplete : Obligations.BusyIsSetByAcceptAndClearedByComplete := by
  refine ⟨rfl, fun s => State.busy_iff, fun s t hstep hs ht => ?_, fun s t hstep hs ht => ?_, fun s r hadm hmove hs => ?_⟩
  · have heffect := (step_iff.mp hstep).2
    simpa using heffect.enters_xfer (by simpa using State.not_busy_iff.mp hs) (State.busy_iff.mp ht)
  · have heffect := (step_iff.mp hstep).2
    simpa using heffect.leaves_xfer (by simpa using State.busy_iff.mp hs) (State.not_busy_iff.mp ht)
  · exact step_of_impossible_accept hadm hmove (.inl (State.busy_iff.mp hs))

/-- Settles O26: a new span comes from an ACCEPT in IDLE alone. -/
theorem spansNeverOverlap : Obligations.SpansNeverOverlap := by
  intro s t sp hstep hp ht
  rcases (step_iff.mp hstep).2.span_cases ht with hs | ⟨r, i, -, hidle, -⟩
  · simpa using hs
  · simp [hp] at hidle

/-- Settles O27: the same case analysis, the span being new. -/
theorem spansComeFromValidRequests : Obligations.SpansComeFromValidRequests := by
  intro s t sp hstep ht hnew
  rcases (step_iff.mp hstep).2.span_cases ht with hs | hissued
  · exact absurd (by simpa using hs) hnew
  · simpa using hissued

end Sys2Proof

namespace Sys2Proof.Machine

/-! ## Runs -/

/-- What every move that is `Allowed` keeps, and drawing a move, holds at the end of a run through such scheduled moves. -/
theorem run_keeps {P : State → Prop} {Allowed : Move → Prop} (hadvance : ∀ s, P s → P s.advance)
    (hmove : ∀ s m t, Allowed m → P s → MoveEffect s m t → P t) {ms rest : List Move} {s t : State}
    (hagenda : s.agenda = ms ++ rest) (hallowed : ∀ m ∈ ms, Allowed m) (hs : P s)
    (hrun : Host.Core.run core ms.length s = .next t) : P t := by
  induction ms generalizing s with
  | nil =>
    cases hrun
    exact hs
  | cons m ms ih =>
    obtain ⟨u, hstep, hrun⟩ := run_succ.mp hrun
    have heffect := (step_iff.mp hstep).2
    have hnext : s.nextMove = m := by simp [State.nextMove, hagenda]
    have htail : s.advance.agenda = ms ++ rest := by simp [State.advance, hagenda]
    refine ih (heffect.agenda.trans htail) (fun m' hm' => hallowed m' (by simp [hm'])) ?_ hrun
    exact hmove s.advance m u (hallowed m (by simp)) (hadvance s hs) (hnext ▸ heffect)

/-- R140: the transaction that was in flight in `s` still is, with its span not answered and its owner without a response, and no
filled slot of `s` was served. -/
structure StillUnanswered (s u : State) : Prop where
  phase      : u.phase = .xfer
  spanResult : u.spanResult = none
  span       : u.span = s.span
  latch      : u.latch = s.latch
  rid        : u.rid = s.rid
  ownerRsp   : u.rspAt s.rid = none
  slots      : ∀ r i, s.pendAt r = some i → ∃ i', u.pendAt r = some i'

theorem StillUnanswered.advance {s u : State} (h : StillUnanswered s u) : StillUnanswered s u.advance where
  phase := by simpa using h.phase
  spanResult := by simpa using h.spanResult
  span := by simpa using h.span
  latch := by simpa using h.latch
  rid := by simpa using h.rid
  ownerRsp := by simpa using h.ownerRsp
  slots := by simpa using h.slots

/-- R140: no move but the primitive's answer changes that. -/
theorem StillUnanswered.of_move {s u t : State} {m : Move} (h : StillUnanswered s u) (hm : ∀ a, m ≠ .answer a)
    (heffect : MoveEffect u m t) : StillUnanswered s t := by
  have hslots (r : Nat) (i : Instr) (hi : s.pendAt r = some i) : ∃ i', t.pendAt r = some i' := by
    obtain ⟨j, hj⟩ := h.slots r i hi
    refine (heffect.slot_cases hj).resolve_right fun ⟨hidle, _⟩ => ?_
    cases hidle.symm.trans h.phase
  cases heffect with
  | wait => exact h
  | present | rewrite => exact { h with ownerRsp := by simpa using h.ownerRsp, slots := hslots }
  | take => exact { h with ownerRsp := by simp [State.rspAt_dropResponse, h.ownerRsp], slots := hslots }
  | reject hp => cases hp.symm.trans h.phase
  | issue hp => cases hp.symm.trans h.phase
  | answer => exact absurd rfl (hm _)
  | complete _ _ ha => cases h.spanResult.symm.trans ha
  | reset hp => cases hp.symm.trans h.phase

/-- A state in which a requester is not done is not a final one (R132). -/
theorem State.not_quiescent_of_pendAt {s : State} {r : Nat} {i : Instr} (h : s.pendAt r = some i) : s.quiescent = false := by
  obtain ⟨q, hq, hpend⟩ := Option.bind_eq_some_iff.mp h
  have hbusy : (q.pend.isNone && q.rsp.isNone) = false := by simp [hpend]
  have hall : (s.ports.all fun q => q.pend.isNone && q.rsp.isNone) = false :=
    List.all_eq_false.mpr ⟨q, List.mem_of_getElem? hq, by simp [hbusy]⟩
  rw [State.quiescent, hall, Bool.and_false]

end Sys2Proof.Machine

namespace Sys2Proof

open Machine

/-- Settles O29: `StillUnanswered` holds at the start and every move but an answer keeps it. -/
theorem unansweredSpanHoldsForEver : Obligations.UnansweredSpanHoldsForEver := by
  constructor
  · intro ms rest s t hagenda hms hp hresult hrsp hrun
    have hstart : StillUnanswered s s := ⟨hp, hresult, rfl, rfl, rfl, hrsp, fun r i hi => ⟨i, hi⟩⟩
    have hend : StillUnanswered s t :=
      run_keeps (P := StillUnanswered s) (Allowed := fun m => ∀ a, m ≠ .answer a) (fun _ => StillUnanswered.advance)
        (fun _ _ _ hm hu heffect => hu.of_move hm heffect) hagenda (fun m hm a hma => hms a (hma ▸ hm)) hstart hrun
    obtain ⟨hphase, hresult, hspan, hlatch, hrid, hrsp, hslots⟩ := hend
    exact ⟨hphase, hresult, hspan, hlatch, hrid, hrsp, hslots⟩
  · intro s t hstep hs ht
    simpa using (step_iff.mp hstep).2.leaves_xfer (by simpa using hs) ht

/-- Settles O49: a filled slot is emptied by its ACCEPT and by a reset alone. -/
theorem pendingRequestWaitsForItsAccept : Obligations.PendingRequestWaitsForItsAccept := by
  intro ms rest s t r hagenda haccept hreset hs hrun
  have hfilled : ∃ i, t.pendAt r = some i := by
    refine run_keeps (P := fun u => ∃ i, u.pendAt r = some i) (Allowed := fun m => m ≠ .accept r ∧ m ≠ .reset)
      (fun u hu => by simpa using hu) (fun u m v hm hu heffect => ?_) hagenda (fun m hm => ?_)
      (State.awaitingAcceptance_iff.mp hs) hrun
    · obtain ⟨i, hi⟩ := hu
      exact (heffect.slot_cases hi).resolve_right fun ⟨_, hemptied⟩ => hemptied.elim hm.1 hm.2
    · exact ⟨fun h => haccept (h ▸ hm), fun h => hreset (h ▸ hm)⟩
  obtain ⟨i, hi⟩ := hfilled
  exact ⟨State.awaitingAcceptance_iff.mpr ⟨i, hi⟩, State.not_quiescent_of_pendAt hi⟩

end Sys2Proof

namespace Sys2Proof.Machine

/-! ## COMPLETE over and over -/

/-- With `n` moves COMPLETE scheduled, none of them possible, up to `n` steps keep whatever drawing a move keeps. -/
theorem run_impossible_complete {P : State → Prop} (hadvance : ∀ s, P s → P s.advance)
    (hwaits : ∀ s, P s → s.phase = .idle ∨ s.spanResult = none) {k n : Nat} {s : State} {rest : List Move}
    (hk : k ≤ n) (hadm : admission s.params = none) (hagenda : s.agenda = List.replicate n .complete ++ rest) (hs : P s) :
    ∃ t, Host.Core.run core k s = .next t ∧ P t := by
  induction k generalizing s n with
  | zero => exact ⟨s, rfl, hs⟩
  | succ k ih =>
    obtain ⟨n, rfl⟩ : ∃ n', n = n' + 1 := Nat.exists_eq_add_one_of_ne_zero (by omega)
    rw [List.replicate_succ, List.cons_append] at hagenda
    have hnext : s.nextMove = .complete := by simp [State.nextMove, hagenda]
    have htail : s.advance.agenda = List.replicate n .complete ++ rest := by simp [State.advance, hagenda]
    have hstep : step s = .next s.advance := by
      refine step_of_waits hadm ?_
      rw [hnext]
      exact (hwaits _ (hadvance s hs)).imp_right .inl
    obtain ⟨t, hrun, ht⟩ := ih (Nat.le_of_succ_le_succ hk) (by simpa using hadm) htail (hadvance s hs)
    exact ⟨t, run_succ.mpr ⟨_, hstep, hrun⟩, ht⟩

@[simp] theorem State.awaitingAnswer_advance (s : State) : s.advance.awaitingAnswer = s.awaitingAnswer := by
  simp [State.awaitingAnswer, State.busy]

@[simp] theorem State.awaitingAcceptance_advance (s : State) (r : Nat) :
    s.advance.awaitingAcceptance r = s.awaitingAcceptance r := by
  simp [State.awaitingAcceptance]

end Sys2Proof.Machine

namespace Sys2Proof

open Machine

/-- Settles O48: in either stuck form COMPLETE is not possible, and drawing it keeps the form. -/
theorem stuckFormsLastAndAreNotFinal : Obligations.StuckFormsLastAndAreNotFinal := by
  refine ⟨fun n s rest hadm hagenda => ⟨fun hs k hk => ?_, fun r hwaits hs k hk => ?_⟩, fun s hs => ?_, fun s r hs => ?_⟩
  · exact run_impossible_complete (P := fun u => u.awaitingAnswer = true) (fun u hu => by simpa using hu)
      (fun u hu => .inr (State.busy_of_awaitingAnswer hu).2) hk hadm hagenda hs
  · obtain ⟨t, hrun, -, ht⟩ := run_impossible_complete
      (P := fun u => (u.phase = .idle ∨ u.awaitingAnswer = true) ∧ u.awaitingAcceptance r = true)
      (fun u hu => by simpa using hu)
      (fun u hu => hu.1.imp_right fun h => (State.busy_of_awaitingAnswer h).2) hk hadm hagenda ⟨hwaits, hs⟩
    exact ⟨t, hrun, ht⟩
  · simp [State.quiescent, (State.busy_of_awaitingAnswer hs).1]
  · obtain ⟨i, hi⟩ := State.awaitingAcceptance_iff.mp hs
    exact State.not_quiescent_of_pendAt hi

end Sys2Proof
end

section
/-!
PROOFS. What each operation of RTF answers (40_transaction.md, 41_read.md, 42_write.md, 60_exceptions.md): the spans of the decrement
read and of the writes, the error of an address out of range, the responses of COMPLETE, and waiting.
-/

namespace Sys2Proof

open Machine

/-! ## ACCEPT -/

/-- Settles O10: as READ.INC, by the span of the read. -/
theorem readDecIssuesItsSpan : Obligations.ReadDecIssuesItsSpan := by
  intro s addr len hready hlen haddr
  have hissues := exec_issues_span hready hlen haddr
  rwa [Instr.request, spanOf_readRequest] at hissues

namespace Machine

/-- R60, R62, R88: the span of a write, byte by byte. -/
theorem spanOf_writeRequest (p : Params) (mode : AddressMode) (addr : RegisterAddress) (data : List Byte) :
    spanOf p (writeRequest mode addr data) =
      [{ tx := some [p.opcWrite, flagByte mode ||| (addr.extractLsb' 8 6).setWidth 8, addr.extractLsb' 0 8],
         rx := false, len := 3 },
       { tx := some data, rx := false, len := data.length }] := by
  rw [← addrHiByte_eq_extract, ← addrLoByte_eq_extract]
  rfl

/-- R85: above `ADDR_MAX` under `reject`, and only there, a length that passes leads to `InvalidAddress`. -/
theorem validate_eq_invalidAddress_iff {p : Params} {req : Request} :
    validate p req = some .invalidAddress ↔ req.len ≠ 0 ∧ Config.addrMax < req.addr ∧ p.addrPolicy = .reject := by
  unfold validate
  split
  · next hlen => simp [hlen]
  · next hlen =>
    split
    · next hreject => simp [hlen, hreject]
    · next hpass => simpa [hlen] using hpass

end Machine

/-- Settles O11: ACCEPT issues the span of the write. -/
theorem writeIncIssuesItsSpan : Obligations.WriteIncIssuesItsSpan := by
  intro s addr data hready hdata haddr
  have hissues := exec_issues_span hready (List.length_pos_of_ne_nil hdata) haddr
  rwa [Instr.request, spanOf_writeRequest] at hissues

/-- Settles O12: as WRITE.INC, with the decrement flag. -/
theorem writeDecIssuesItsSpan : Obligations.WriteDecIssuesItsSpan := by
  intro s addr data hready hdata haddr
  have hissues := exec_issues_span hready (List.length_pos_of_ne_nil hdata) haddr
  rwa [Instr.request, spanOf_writeRequest] at hissues

namespace Machine

theorem Instr.op_request (i : Instr) : i.request.op = i.direction := by
  cases i <;> rfl

theorem Instr.addr_request (i : Instr) : i.request.addr = i.address := by
  cases i <;> rfl

end Machine

/-- Settles O15: validation gives `InvalidAddress` exactly where `validate_eq_invalidAddress_iff` says. -/
theorem addressAboveRangeIsRejected : Obligations.AddressAboveRangeIsRejected := by
  refine ⟨fun s i hready hcount haddr hreject => ?_, fun p req hmask h => ?_, fun p req hle h => ?_⟩
  · have hinvalid : validate s.params i.request = some .invalidAddress := by
      rw [validate_eq_invalidAddress_iff, Instr.len_request, Instr.addr_request]
      exact ⟨hcount, haddr, hreject⟩
    exact ⟨_, exec_of_ready hready, errorGiven_accept hinvalid (State.lt_of_pendAt hready.slot)⟩
  · obtain ⟨-, -, hreject⟩ := validate_eq_invalidAddress_iff.mp h
    cases hmask.symm.trans hreject
  · obtain ⟨-, hgt, -⟩ := validate_eq_invalidAddress_iff.mp h
    exact BitVec.not_lt.mpr hle hgt

/-! ## COMPLETE -/

/-- Settles O17: the response to `Ok(rx)` of a read is the bytes `rx`. -/
theorem readsRespondWithTheBytes : Obligations.ReadsRespondWithTheBytes := by
  intro s i rx hdir hans
  have hgiven := exec_of_answered hans
  rwa [Instr.op_request, hdir] at hgiven

/-- Settles O18: the response to `Ok` of a write has no data. -/
theorem writesRespondWithoutData : Obligations.WritesRespondWithoutData := by
  intro s i rx hdir hans
  have hgiven := exec_of_answered hans
  rwa [Instr.op_request, hdir] at hgiven

/-- Settles O19: the response to `Err(code)` does not depend on the direction. -/
theorem primitiveFaultsBecomeIoFailure : Obligations.PrimitiveFaultsBecomeIoFailure := by
  intro s i code hans
  exact exec_of_answered hans

/-! ## Which operation runs -/

/-- Settles O23: both preconditions of `transactionStep` fail. -/
theorem otherOperationsWait : Obligations.OtherOperationsWait := by
  constructor
  · intro s i hp hl
    simp [exec_eq, transactionStep, hp, hl]
  · intro s i hp hslot
    simp [exec_eq, transactionStep, hp, hslot]

/-- Settles O33: the accept and complete moves are `exec` of these operations. -/
theorem stepRunsTheOperation : Obligations.StepRunsTheOperation := by
  constructor
  · intro s r i hadm hmove hp hslot
    simp [step_eq_of_admitted hadm, hmove, performMove, acceptMove, hp, hslot]
  · intro s hadm hmove hp
    simp [step_eq_of_admitted hadm, hmove, performMove, completeMove, hp]

/-- Settles O34: the placed call stands in slot 0 in IDLE, and ACCEPT(0) is next. -/
theorem placedWordRunsNext : Obligations.PlacedWordRunsNext := by
  intro s nbits w i hadm hword
  have hplace : s.withFetchWord nbits w = placeCall i s := by simp [State.withFetchWord, hword]
  have hslot : (placeCall i s).pendAt 0 = some i := rfl
  refine ⟨(placeCall i s).advance.select 0, ⟨rfl, hslot⟩, rfl, ?_⟩
  rw [hplace]
  exact stepRunsTheOperation.1 (placeCall i s) 0 i hadm rfl rfl hslot

/-! ## Reset -/

/-- Settles O35: the reset state is a constructed one, and its one port is empty. -/
theorem resetMeetsTheInvariant : Obligations.ResetMeetsTheInvariant :=
  ⟨State.inv_construct .., rfl, rfl, rfl, rfl, fun _ => ⟨State.pendAt_construct .., State.rspAt_construct ..⟩, by decide⟩

/-- Settles O39: the reset move in each phase. -/
theorem resetMoveIsForIdleOnly : Obligations.ResetMoveIsForIdleOnly := by
  intro s hadm hmove
  rw [step_eq_of_admitted hadm, hmove]
  constructor
  · intro hp
    simp [performMove, resetMove, hp]
  · intro hp
    refine ⟨_, resetMove_iff.mpr (.reset (by simpa using hp)), rfl, s.advance_params, rfl, rfl, by simp, fun r => ?_⟩
    exact ⟨State.pendAt_construct .., State.rspAt_construct ..⟩

/-! ## Configurations -/

namespace Machine

/-- R7, R132 (b), R136, R146: what parameters with a meaning meet. -/
theorem admission_eq_none_iff {p : Params} : admission p = none ↔
    p.opcWrite ≠ Config.opcRead ∧ p.admitsLen Config.probeLen = true ∧ p.nReq ≠ 0 ∧ p.handle.live = true ∧
      p.handle.instances = 1 ∧ p.handle.otherUsers = 0 ∧ p.handle.wordBits = Config.wordBits := by
  simp [admission, ite_eq_iff]

theorem Params.admitsLen_iff {p : Params} {n : Nat} : p.admitsLen n = true ↔ ∀ m, p.maxLen = some m → n ≤ m := by
  cases h : p.maxLen <;> simp [Params.admitsLen, h]

theorem step_refused_of_not_admitted {s : State} (h : admission s.params ≠ none) : ∃ r, step s = .refused r := by
  obtain ⟨r, hr⟩ := Option.ne_none_iff_exists'.mp h
  exact ⟨r, by simp [step, systemStep, hr]⟩

end Machine

/-- Settles O40: each breach denies one of the seven conditions of `admission_eq_none_iff`. -/
theorem configurationsWithoutMeaningAreRefused : Obligations.ConfigurationsWithoutMeaningAreRefused := by
  refine ⟨fun s hbad => ?_, fun s hbad => ?_, fun p hopc hlen hreq hlive hinst husers hword => ?_, by decide⟩
  · refine step_refused_of_not_admitted fun hadm => ?_
    obtain ⟨-, -, -, hlive, hinst, husers, -⟩ := admission_eq_none_iff.mp hadm
    simp [hlive, hinst, husers] at hbad
  · refine step_refused_of_not_admitted fun hadm => ?_
    obtain ⟨hopc, hlen, hreq, -, -, -, hword⟩ := admission_eq_none_iff.mp hadm
    rcases hbad with hclash | ⟨n, hn, hshort⟩ | hnone | hwide
    · exact hopc hclash
    · exact Nat.not_le.mpr hshort (Params.admitsLen_iff.mp hlen n hn)
    · exact hreq hnone
    · exact hwide hword
  · exact admission_eq_none_iff.mpr
      ⟨hopc, Params.admitsLen_iff.mpr hlen, Nat.one_le_iff_ne_zero.mp hreq, hlive, hinst, husers, hword⟩

/-! ## Requesters -/

/-- Settles O41: `blocked` is the disjunction of the three hypotheses. -/
theorem requesterFillsItsOwnSlot : Obligations.RequesterFillsItsOwnSlot := by
  constructor
  · intro s r i hr hslot hrsp hflight hi
    have hfree : s.blocked r = false := by
      refine State.not_blocked_iff.mpr ⟨hslot, hrsp, fun hp => hflight.resolve_left ?_⟩
      simp [hp]
    exact ⟨_, presentMove_iff.mpr (.present hr hfree hi), by simp [State.pendAt_fillSlot, hr],
      fun q hq => by simp [State.pendAt_fillSlot, hq.symm], fun q => State.rspAt_fillSlot .., rfl, rfl, rfl, rfl, rfl,
      ⟨rfl, rfl, rfl, rfl, State.length_fillSlot ..⟩⟩
  · intro s r i hr hbusy
    have hblocked : s.blocked r = true := by
      by_contra h
      obtain ⟨hslot, hrsp, hrid⟩ := State.not_blocked_iff.mp (Bool.not_eq_true _ ▸ h)
      rcases hbusy with h | h | ⟨hp, h⟩
      · exact h hslot
      · exact h hrsp
      · exact hrid hp h
    simp [presentMove, Nat.not_le.mpr hr, hblocked]

/-- Settles O42: a rewrite waits on an empty slot, and else fills the slot with the call it holds, a write's payload replaced. -/
theorem acceptedPayloadIsASnapshot : Obligations.AcceptedPayloadIsASnapshot := by
  intro s t r data h
  cases rewriteMove_iff.mp h with
  | wait hwaits =>
    obtain ⟨-, hslot⟩ : _ ∧ s.pendAt r = none := hwaits
    exact ⟨rfl, rfl, rfl, rfl, rfl, ⟨rfl, rfl, rfl, rfl, rfl⟩, fun _ => rfl, fun _ _ => rfl, fun _ => rfl, fun _ _ _ => rfl,
      fun _ => rfl, by simp [hslot], by simp [hslot]⟩
  | @rewrite _ _ i i' hslot hi =>
    have hfilled : (s.fillSlot r i').pendAt r = some i' := by
      simp [State.pendAt_fillSlot, State.lt_of_pendAt hslot]
    refine ⟨rfl, rfl, rfl, rfl, rfl, ⟨rfl, rfl, rfl, rfl, State.length_fillSlot ..⟩, fun q => State.rspAt_fillSlot ..,
      fun q hq => by simp [State.pendAt_fillSlot, hq.symm], ?_, ?_, ?_, ?_, ?_⟩
    · simp [hslot]
    · rintro addr len (hread | hread)
      all_goals
        cases hslot.symm.trans hread
        cases hi
        exact State.fillSlot_eq_self hslot
    · intro hprobe
      cases hslot.symm.trans hprobe
      cases hi
      exact State.fillSlot_eq_self hslot
    · intro addr old hwrite
      cases hslot.symm.trans hwrite
      obtain ⟨hlen, rfl⟩ : data.length = old.length ∧ Instr.writeInc addr data = i' := by simpa [rewritePayload] using hi
      exact ⟨hlen, hfilled⟩
    · intro addr old hwrite
      cases hslot.symm.trans hwrite
      obtain ⟨hlen, rfl⟩ : data.length = old.length ∧ Instr.writeDec addr data = i' := by simpa [rewritePayload] using hi
      exact ⟨hlen, hfilled⟩

/-- Settles O43: the take move is `dropResponse`. -/
theorem requesterTakesItsResponse : Obligations.RequesterTakesItsResponse := by
  intro s r
  exact ⟨s.dropResponse r, rfl, by simp [State.rspAt_dropResponse], fun q hq => by simp [State.rspAt_dropResponse, hq.symm],
    fun q => State.pendAt_dropResponse .., rfl, rfl, rfl, rfl, rfl, ⟨rfl, rfl, rfl, rfl, State.length_dropResponse ..⟩⟩

/-! ## The wire view -/

namespace Machine

/-- R91: the bytes of an `Ok` that fits are those the span asks for. -/
theorem Answer.ok_fits_iff {p : Params} {req : Request} {rx : List Byte} :
    (Answer.ok rx).fits p (spanOf p req) = true ↔ rx.length = if req.op = .read then req.len else 0 := by
  simp [Answer.fits, receiveLength_spanOf]

end Machine

/-- Settles O45: the two lines computed over the header segment and the data segment of each direction. -/
theorem wireViewOfAFrame : Obligations.WireViewOfAFrame := by
  intro p req _
  refine ⟨fun hop => ?_, fun hop => ?_, fun rx hop hfits => ?_, fun rx hop hfits => ?_, ?_⟩
  · simp [spanOf, headerSegment, dataSegment, wireOut, hop]
  · simp [spanOf, headerSegment, dataSegment, wireOut, hop]
  · have hlen : rx.length = req.len := by simpa [Answer.ok_fits_iff, hop] using hfits
    refine ⟨?_, hlen, by rw [hop]; rfl⟩
    simp [wireIn, wireInBytes, spanOf, headerSegment, dataSegment, hop, ← hlen, Config.hdrLen]
  · refine ⟨?_, by rw [hop]; rfl⟩
    simp [wireIn, wireInBytes, spanOf, headerSegment, dataSegment, hop, Config.hdrLen]
  · cases hop : req.op <;> simp [frameBits, frameBytes, spanOf, headerSegment, dataSegment, hop, Config.wordBits, Config.hdrLen]

end Sys2Proof
end

section
/-!
PROOFS. The primitive and whole transactions (30_encoding.md R68; 40_transaction.md R94; 60_exceptions.md R132 (c)): in a state that
meets the invariant the span on SPAN is the one of the latch, so it decodes, and every answer that fits is taken.
-/

namespace Sys2Proof.Machine

/-! ## The span on SPAN -/

section OnSpan

variable {s : State} {sp : Span}

/-- R33: a span on SPAN is that of the transaction in flight. -/
theorem State.Inv.span_eq (h : s.Inv) (hsp : s.span = some sp) : s.InFlight ∧ sp = spanOf s.params s.latch := by
  cases hp : s.phase with
  | idle => cases (h.idleQuiet hp).1.symm.trans hsp
  | xfer =>
    refine ⟨h.flight hp, ?_⟩
    rcases (h.flight hp).channels with ⟨hspan, -⟩ | ⟨hnone, -⟩
    · exact Option.some.inj (hsp.symm.trans hspan)
    · cases hnone.symm.trans hsp

/-- R72, R132 (c): it is one RTF may issue. -/
theorem State.Inv.decodeSpan_eq (h : s.Inv) (hopc : s.params.opcWrite ≠ Config.opcRead) (hsp : s.span = some sp) :
    decodeSpan s.params sp = .ok s.latch.call := by
  obtain ⟨hflight, rfl⟩ := h.span_eq hsp
  exact decodeSpan_spanOf hopc hflight.consistent hflight.lenPositive hflight.addrValid

/-- R15: whether the answer fits is all that decides it. -/
theorem State.Inv.answerMove_eq (h : s.Inv) (hopc : s.params.opcWrite ≠ Config.opcRead) (hsp : s.span = some sp) (a : Answer) :
    answerMove a s = if a.fits s.params sp then .next (s.putAnswer a) else .refused a.misfit := by
  simp only [answerMove, hsp, h.decodeSpan_eq hopc hsp]

/-- R66, R67, R68: the two segments of the span of a consistent request with at least one byte. -/
theorem spanShape_spanOf {p : Params} {req : Request} (hcons : req.consistent = true) (hlen : 1 ≤ req.len) :
    SpanShape (spanOf p req) (headerSegment p req) (dataSegment req) where
  two := rfl
  header := ⟨_, _, _, rfl⟩
  sendOnly := rfl
  three := rfl
  data := by cases hop : req.op <;> simpa [dataSegment, hop] using hlen
  oneWay := by
    cases hop : req.op with
    | read => exact .inl (by simp [dataSegment, hop])
    | write => exact .inr (by simpa [dataSegment, hop, Request.consistent, eq_comm] using hcons)

end OnSpan

end Sys2Proof.Machine

namespace Sys2Proof

open Machine

/-- Settles O28: after the step the invariant holds again, and it names the span. -/
theorem everyIssuedSpanHasTwoSegments : Obligations.EveryIssuedSpanHasTwoSegments := by
  intro s t sp hinv hstep hsp
  obtain ⟨hflight, rfl⟩ := (hinv.step hstep).span_eq hsp
  exact ⟨_, _, spanShape_spanOf hflight.consistent hflight.lenPositive, receiveLength_spanOf ..⟩

/-- Settles O44: such an answer fits the span of the latch. -/
theorem primitiveMayAnswerAnything : Obligations.PrimitiveMayAnswerAnything := by
  intro s sp a hinv hadm hsp hok herr
  have hfits : a.fits s.params sp = true := by
    obtain ⟨-, rfl⟩ := hinv.span_eq hsp
    cases a with
    | ok rx => exact Answer.ok_fits_iff.mpr (hok rx rfl)
    | err code => exact herr code rfl
  refine ⟨s.putAnswer a, ?_, rfl, rfl, rfl, rfl, rfl, rfl, ⟨rfl, rfl, rfl, rfl, rfl⟩⟩
  rw [hinv.answerMove_eq (admission_eq_none_iff.mp hadm).1 hsp, if_pos hfits]

/-- Settles O51: the codes in responses are part of the invariant, and an answer on SPAN_RESULT fits its span. -/
theorem onlyCodesOfTheTypeAppear : Obligations.OnlyCodesOfTheTypeAppear := by
  constructor
  · intro s t hinv hstep
    have hinv' : t.Inv := hinv.step hstep
    refine ⟨hinv'.codes, fun code hcode => ?_⟩
    cases hp : t.phase with
    | idle => cases (hinv'.idleQuiet hp).2.symm.trans hcode
    | xfer => exact ((hinv'.flight hp).fits_of_answer hcode).2
  · intro s code hinv hspan hopc hcode
    obtain ⟨sp, hsp⟩ := Option.ne_none_iff_exists'.mp hspan
    have hmisfit : (Answer.err code).fits s.params sp = false := hcode
    rw [hinv.answerMove_eq hopc hsp, hmisfit]
    rfl

namespace Machine

/-! ## No move reports the framer -/

/-- The two reports of the primitive's check of a span (R132 (c); log entry 24). -/
def IsSpanReport : Host.Outcome State Fault Refusal → Prop
  | .fault .brokenFramer => True
  | .refused .headerOnlySpan => True
  | _ => False

/-- Only a move of the primitive reports a span: the checks of the other moves refuse by other names. -/
theorem answer_of_isSpanReport {m : Move} {s : State} (h : IsSpanReport (performMove m s)) : ∃ a, m = .answer a := by
  cases m with
  | answer a => exact ⟨a, rfl⟩
  | present r i =>
    simp only [performMove, presentMove] at h
    split at h
    · exact h.elim
    · split at h
      · exact h.elim
      · split at h <;> exact h.elim
  | rewrite r data =>
    simp only [performMove, rewriteMove] at h
    split at h
    · exact h.elim
    · split at h
      · exact h.elim
      · split at h <;> exact h.elim
  | take r => exact h.elim
  | accept r =>
    simp only [performMove, acceptMove] at h
    split at h
    · next i _ _ =>
      obtain ⟨t, ht⟩ := exec_next i (s.select r)
      rw [ht] at h
      exact h.elim
    · exact h.elim
    · exact h.elim
  | complete =>
    simp only [performMove, completeMove] at h
    split at h
    · exact h.elim
    · obtain ⟨t, ht⟩ := exec_next s.latch.call s
      rw [ht] at h
      exact h.elim
  | reset =>
    simp only [performMove, resetMove] at h
    split at h <;> exact h.elim

/-- No parameters are refused by the name of a span report. -/
theorem admission_ne_headerOnlySpan (p : Params) : admission p ≠ some .headerOnlySpan := by
  simp [admission, ite_eq_iff]

/-- R132 (c): the invariant rules both reports out. -/
theorem State.Inv.not_isSpanReport {s : State} (h : s.Inv) : ¬ IsSpanReport (Machine.step s) := by
  intro hreport
  cases hadm : admission s.params with
  | some r =>
    have hr : r ≠ .headerOnlySpan := fun heq => admission_ne_headerOnlySpan s.params (heq ▸ hadm)
    simp only [Machine.step, systemStep, hadm] at hreport
    cases r
    case headerOnlySpan => exact hr rfl
    all_goals exact hreport
  | none =>
    rw [step_eq_of_admitted hadm] at hreport
    obtain ⟨a, hmove⟩ := answer_of_isSpanReport hreport
    rw [hmove] at hreport
    change IsSpanReport (answerMove a s.advance) at hreport
    cases hsp : s.advance.span with
    | none =>
      rw [answerMove_iff.mpr (.wait hsp)] at hreport
      exact hreport
    | some sp =>
      have hopc : s.advance.params.opcWrite ≠ Config.opcRead := by simpa using (admission_eq_none_iff.mp hadm).1
      rw [h.advance.answerMove_eq hopc hsp] at hreport
      split at hreport
      · exact hreport
      · cases a <;> exact hreport

end Machine

/-- Settles O37: neither report can be the outcome. -/
theorem framerIsNeverBroken : Obligations.FramerIsNeverBroken := by
  intro s hinv
  have hno := hinv.not_isSpanReport
  exact ⟨fun h => hno (by rw [h]; trivial), fun h => hno (by rw [h]; trivial)⟩

/-! ## Whole transactions -/

namespace Machine

theorem transact_of_invalid {p : Params} {req : Request} {e : TransportError} (h : validate p req = some e)
    (prim : Span → Answer) : transact p req prim = { issued := none, response := .err e } := by
  simp [transact, h]

theorem transact_of_valid {p : Params} {req : Request} (h : validate p req = none) (prim : Span → Answer) :
    transact p req prim = { issued := some (spanOf p (req.latched p)),
                            response := responseTo req.op (prim (spanOf p (req.latched p))) } := by
  simp [transact, h]

/-- R90, R95, at the step: an ACCEPT of a valid request issues its span. -/
theorem step_of_valid {s : State} {r : Nat} {i : Instr} (hadm : admission s.params = none) (hmove : s.nextMove = .accept r)
    (hp : s.phase = .idle) (hslot : s.pendAt r = some i) (hv : validate s.params i.request = none) :
    ∃ t, step s = .next t ∧
      SpanIssued (s.advance.select r) t (spanOf s.params (i.request.latched s.params)) (i.request.latched s.params) := by
  have hissued := spanIssued_accept (s := s.advance.select r) (req := i.request) (by simpa using hv)
  exact ⟨_, step_of_accept hadm hmove hp hslot, by simpa using hissued⟩

/-- R15, R34, at the step: the primitive's answer, where it fits the span on SPAN. -/
theorem step_of_answer {s : State} {a : Answer} {sp : Span} (h : s.Inv) (hadm : admission s.params = none)
    (hmove : s.nextMove = .answer a) (hsp : s.span = some sp) (hfits : a.fits s.params sp = true) :
    step s = .next (s.advance.putAnswer a) := by
  have hd := h.decodeSpan_eq (admission_eq_none_iff.mp hadm).1 hsp
  refine step_iff.mpr ⟨hadm, ?_⟩
  rw [hmove]
  exact .answer (by simpa using hsp) (by simpa using hd) (by simpa using hfits)

theorem State.nextMove_of_agenda {s : State} {m : Move} {ms : List Move} (h : s.agenda = m :: ms) : s.nextMove = m := by
  simp [State.nextMove, h]

theorem State.agenda_advance {s : State} {m : Move} {ms : List Move} (h : s.agenda = m :: ms) : s.advance.agenda = ms := by
  simp [State.advance, h]

end Machine

/-- Settles O30: the three steps one after the other, each by what it issues, takes or gives; and the one step of a rejection. -/
theorem twoStepsRefineTheTransaction : Obligations.TwoStepsRefineTheTransaction := by
  constructor
  · intro s r i a ms hinv hadm hp hslot hagenda hv hfits
    obtain ⟨u, hu, issued⟩ := step_of_valid hadm (State.nextMove_of_agenda hagenda) hp hslot hv
    have hparams : u.params = s.params := by simpa using issued.rest.params
    have hagendaU : u.agenda = .answer a :: .complete :: ms := by
      simpa [State.agenda_advance hagenda] using issued.rest.agenda
    have hinvU : u.Inv := hinv.step hu
    have hv' : step u = .next (u.advance.putAnswer a) :=
      step_of_answer hinvU (hparams ▸ hadm) (State.nextMove_of_agenda hagendaU) issued.span (hparams ▸ hfits)
    have hagendaV : (u.advance.putAnswer a).agenda = .complete :: ms := State.agenda_advance hagendaU
    obtain ⟨t, ht, given⟩ := step_of_complete (a := a) (hinvU.step hv') (by simpa [hparams] using hadm)
      (State.nextMove_of_agenda hagendaV) (by simpa using issued.phase) rfl
    have hlatch : u.latch.op = i.request.op := by simp [issued.latch]
    refine ⟨u, _, t, hu, hv', ht, ?_, ?_, given.phase, ?_, given.spanResult, ?_, ?_, ?_, fun q hq => ⟨?_, ?_⟩⟩
    · rw [transact_of_valid hv, issued.span]
    · simpa [transact_of_valid hv, issued.rid, hlatch] using given.response
    · simpa using given.span
    · rw [given.slots]
      simpa using issued.slot
    · rw [given.rest.agenda, State.agenda_advance hagendaV]
    · simpa [hparams] using given.rest.params
    · rw [given.slots]
      simpa using issued.otherSlots q hq
    · rw [given.otherResponses q (by simpa [issued.rid] using hq)]
      simpa using issued.responses q
  · intro s r i prim hadm hp hslot hmove hinvalid
    obtain ⟨e, he⟩ := Option.ne_none_iff_exists'.mp hinvalid
    obtain ⟨t, ht, given⟩ := step_of_rejected hadm hmove hp hslot he
    rw [transact_of_invalid he]
    exact ⟨t, ht, rfl, by simpa using given.span, given.response, given.phase, given.slot⟩

end Sys2Proof
end

section
/-!
PROOFS. The reference mock (95_test_vectors.md section 4): the addresses of a burst inside the space are distinct, so a burst is read
back; and the mock decodes the spans of RTF to the operations it then serves.
-/

namespace Sys2Proof.Machine

/-! ## Bursts -/

/-- The mock steps to another address with each byte of a burst inside the space. -/
theorem burstAddress_ne {mode : AddressMode} {a n i j : Nat} (h : burstInside mode a n = true) (hij : i < j) (hj : j < n) :
    burstAddress mode a j ≠ burstAddress mode a i := by
  cases mode with
  | increment =>
    simp only [burstAddress]
    omega
  | decrement =>
    have hn : n ≤ a + 1 := (of_decide_eq_true h).2
    simp only [burstAddress]
    omega

/-- A location outside a burst reads as before the burst was stored. -/
theorem readCell_writeBurst {m : List Host.Cell} (h : CellsWf m) {mode : AddressMode} {a k : Nat} {data : List Byte} {b : Nat}
    (hb : ∀ i, i < data.length → b ≠ burstAddress mode a (k + i)) :
    readCell (writeBurst m mode a k data) b = readCell m b := by
  induction data generalizing m k with
  | nil => rfl
  | cons d ds ih =>
    have htail (i : Nat) (hi : i < ds.length) : b ≠ burstAddress mode a (k + 1 + i) := by
      have hlater := hb (i + 1) (Nat.succ_lt_succ hi)
      rwa [Nat.add_comm i 1, ← Nat.add_assoc] at hlater
    have hhead : burstAddress mode a k ≠ b := (hb 0 (Nat.succ_pos _)).symm
    rw [writeBurst, ih (wf_writeCell h _ _) htail, readCell_writeCell h, if_neg hhead]

/-- The rest of a burst inside the space, from its `k`-th byte on, is read back. -/
theorem readBurst_writeBurst {m : List Host.Cell} (h : CellsWf m) {mode : AddressMode} {a k : Nat} {data : List Byte}
    (hinside : burstInside mode a (k + data.length) = true) :
    readBurst (writeBurst m mode a k data) mode a k data.length = data := by
  induction data generalizing m k with
  | nil => rfl
  | cons d ds ih =>
    have hshift : k + (d :: ds).length = k + 1 + ds.length := by
      rw [List.length_cons]
      omega
    have hw : CellsWf (writeCell m (burstAddress mode a k) d) := wf_writeCell h _ _
    have hhead : readCell (writeBurst (writeCell m (burstAddress mode a k) d) mode a (k + 1) ds) (burstAddress mode a k) = d := by
      rw [readCell_writeBurst hw, readCell_writeCell h, if_pos rfl]
      exact fun i hi => (burstAddress_ne hinside (by omega) (by omega)).symm
    rw [writeBurst, List.length_cons, readBurst, hhead, ih hw (hshift ▸ hinside)]

end Sys2Proof.Machine

namespace Sys2Proof

open Machine

/-- Settles O46: the three facts about `writeBurst`, from its first byte on. -/
theorem mockBurstWriteIsReadBack : Obligations.MockBurstWriteIsReadBack := by
  intro m mode a data hwf hinside
  refine ⟨wf_writeBurst hwf mode a 0 data, readBurst_writeBurst hwf (by simpa using hinside), fun b hb => ?_⟩
  exact readCell_writeBurst hwf (by simpa using hb)

end Sys2Proof

namespace Sys2Proof.Machine

/-! ## Transactions with the mock -/

/-- With no fault scheduled, the response to a valid request is that to the answer the mock performs its call with. -/
theorem transactMock_of_answered {p : Params} {req : Request} {m m' : Mock} {a : Answer} (hp : p.opcWrite ≠ Config.opcRead)
    (hcons : req.consistent = true) (hlen : 1 ≤ req.len) (haddr : req.addr ≤ Config.addrMax) (hplan : m.plan = [])
    (ha : (m.record (spanOf p req)).perform req.call = .answered a m') :
    transactMock p req m = some (responseTo req.op a, m') := by
  have hserve : m.serve p (spanOf p req) = .answered a m' := by
    simp [Mock.serve, decodeSpan_spanOf hp hcons hlen haddr, hplan, ha]
  simp [transactMock, validate_eq_none_of_valid hlen (.inl haddr), Request.latched_of_valid haddr, hserve]

/-- A burst inside the space is performed: a write stores its payload. -/
theorem Mock.perform_write {m : Mock} {i : Instr} (hdir : i.direction = .write)
    (h : burstInside i.mode i.address.toNat i.byteCount = true) :
    m.perform i = .answered (.ok []) { m with mem := writeBurst m.mem i.mode i.address.toNat 0 i.payload } := by
  simp [Mock.perform, h, hdir]

/-- And a read returns the bytes of its burst. -/
theorem Mock.perform_read {m : Mock} {i : Instr} (hdir : i.direction = .read)
    (h : burstInside i.mode i.address.toNat i.byteCount = true) :
    m.perform i = .answered (.ok (readBurst m.mem i.mode i.address.toNat 0 i.byteCount)) m := by
  simp [Mock.perform, h, hdir]

section Operands

variable {p : Params} {m : Mock} {mode : AddressMode} {addr : RegisterAddress} (hp : p.opcWrite ≠ Config.opcRead)
  (haddr : addr ≤ Config.addrMax) (hplan : m.plan = [])

include hp haddr hplan

/-- A write inside the space stores its burst and is recorded. -/
theorem transactMock_write {data : List Byte} (hdata : data ≠ []) (hinside : burstInside mode addr.toNat data.length = true) :
    ∃ m', transactMock p (writeRequest mode addr data) m = some (.okDone, m') ∧
      m'.mem = writeBurst m.mem mode addr.toNat 0 data ∧ m'.plan = [] ∧ m'.history.length = m.history.length + 1 := by
  have hcons : (writeRequest mode addr data).consistent = true := by simp [writeRequest, Request.consistent]
  refine ⟨{ m.record (spanOf p (writeRequest mode addr data)) with mem := writeBurst m.mem mode addr.toNat 0 data },
    ?_, rfl, by simp [Mock.record, hplan], by simp [Mock.record]⟩
  refine transactMock_of_answered (a := .ok []) hp hcons (List.length_pos_of_ne_nil hdata) haddr hplan ?_
  cases mode <;> exact Mock.perform_write rfl hinside

/-- A read inside the space returns its burst and leaves the memory alone. -/
theorem transactMock_read {len : Nat} (hlen : 1 ≤ len) (hinside : burstInside mode addr.toNat len = true) :
    transactMock p (readRequest mode addr len) m = some (.okData (readBurst m.mem mode addr.toNat 0 len),
      m.record (spanOf p (readRequest mode addr len))) := by
  refine transactMock_of_answered (a := .ok _) hp rfl hlen haddr hplan ?_
  cases mode <;> exact Mock.perform_read rfl hinside

end Operands

end Sys2Proof.Machine

namespace Sys2Proof

open Machine

/-- Settles O47: the read finds the memory the write left, and a burst written is read back. -/
theorem mockWriteThenReadReturnsTheData : Obligations.MockWriteThenReadReturnsTheData := by
  intro p m mode addr data hp hwf hplan haddr hdata hinside
  have hback : readBurst (writeBurst m.mem mode addr.toNat 0 data) mode addr.toNat 0 data.length = data :=
    readBurst_writeBurst hwf (by simpa using hinside)
  obtain ⟨m₁, hwrite, hmem, hplan₁, hhistory⟩ := transactMock_write hp haddr hplan hdata hinside
  have hread := transactMock_read hp haddr hplan₁ (List.length_pos_of_ne_nil hdata) hinside
  rw [hmem, hback] at hread
  exact ⟨m₁, _, hwrite, hread, rfl, by simp [Mock.record, hhistory]⟩

end Sys2Proof
end

section
/-!
PROOFS. Noninterference (10_state.md R21, R25, R28; 00_scope.md R7): no step reads a dead field, and every step of a state is a step
of the state with its fault codes renamed.
-/

namespace Sys2Proof.Machine

/-! ## Dead fields -/

section Dead

variable (s : State)

@[simp] theorem State.forgetDead_params : s.forgetDead.params = s.params := by
  unfold State.forgetDead; split <;> rfl

@[simp] theorem State.forgetDead_phase : s.forgetDead.phase = s.phase := by
  unfold State.forgetDead; split <;> rfl

@[simp] theorem State.forgetDead_ports : s.forgetDead.ports = s.ports := by
  unfold State.forgetDead; split <;> rfl

@[simp] theorem State.forgetDead_span : s.forgetDead.span = s.span := by
  unfold State.forgetDead; split <;> rfl

@[simp] theorem State.forgetDead_agenda : s.forgetDead.agenda = s.agenda := by
  unfold State.forgetDead; split <;> rfl

@[simp] theorem State.forgetDead_tick : s.forgetDead.tick = s.tick := by
  unfold State.forgetDead; split <;> rfl

@[simp] theorem State.pendAt_forgetDead (r : Nat) : s.forgetDead.pendAt r = s.pendAt r :=
  State.pendAt_congr s.forgetDead_ports r

@[simp] theorem State.rspAt_forgetDead (r : Nat) : s.forgetDead.rspAt r = s.rspAt r :=
  State.rspAt_congr s.forgetDead_ports r

/-- In XFER the owner is live, and in IDLE it blocks nobody. -/
@[simp] theorem State.blocked_forgetDead (r : Nat) : s.forgetDead.blocked r = s.blocked r := by
  cases hp : s.phase with
  | idle => simp [State.blocked, State.busy, hp]
  | xfer =>
    have hrid : s.forgetDead.rid = s.rid := by simp [State.forgetDead, hp]
    simp [State.blocked, State.busy, hrid]

/-! The updates that write neither a dead field nor `phase` commute with forgetting. -/

@[simp] theorem State.forgetDead_forgetDead : s.forgetDead.forgetDead = s.forgetDead := by
  cases hp : s.phase <;> simp [State.forgetDead, hp]

@[simp] theorem State.forgetDead_fillSlot (r : Nat) (i : Instr) : (s.fillSlot r i).forgetDead = s.forgetDead.fillSlot r i := by
  cases hp : s.phase <;> simp [State.forgetDead, State.fillSlot, hp]

@[simp] theorem State.forgetDead_dropResponse (r : Nat) : (s.dropResponse r).forgetDead = s.forgetDead.dropResponse r := by
  cases hp : s.phase <;> simp [State.forgetDead, State.dropResponse, hp]

@[simp] theorem State.forgetDead_putAnswer (a : Answer) : (s.putAnswer a).forgetDead = s.forgetDead.putAnswer a := by
  cases hp : s.phase <;> simp [State.forgetDead, State.putAnswer, hp]

@[simp] theorem State.forgetDead_advance : s.advance.forgetDead = s.forgetDead.advance := by
  cases hp : s.phase <;> cases ha : s.agenda <;> simp [State.forgetDead, State.advance, hp, ha]

@[simp] theorem State.nextMove_forgetDead : s.forgetDead.nextMove = s.nextMove := by
  simp [State.nextMove]

/-- R81, R90: ACCEPT in IDLE writes the fields that are dead there, or leaves them dead. -/
theorem forgetDead_accept (hp : s.phase = .idle) (r : Nat) (req : Request) :
    (accept r req (s.forgetDead.select r)).forgetDead = (accept r req (s.select r)).forgetDead := by
  cases hv : validate s.params req <;>
    simp [State.forgetDead, accept, hp, hv, raiseError, respond, issue, State.select, State.emptySlot, State.putResponse]

/-- R91, R93: COMPLETE in XFER reads neither of the fields that are dead there, and leaves the others dead. -/
theorem forgetDead_complete (hp : s.phase = .xfer) : (complete s.forgetDead).forgetDead = (complete s).forgetDead := by
  rcases complete_cases s with ⟨hnone, hc⟩ | ⟨a, ha, hc⟩
  · have hnone' : s.forgetDead.spanResult = none := by simpa [State.forgetDead, hp] using hnone
    rw [hc]
    simp [complete, hnone']
  · have ha' : s.forgetDead.spanResult = some a := by simpa [State.forgetDead, hp] using ha
    rw [hc, complete_of_answer ha']
    simp [State.forgetDead, hp, respond, State.takeAnswer, State.putResponse]

/-- R21: whatever the move, its outcome is the same up to dead fields. -/
theorem performMove_forgetDead (m : Move) :
    forgetDeadOutcome (performMove m s.forgetDead) = forgetDeadOutcome (performMove m s) := by
  cases m with
  | present r i =>
    simp only [performMove, presentMove, State.forgetDead_ports, State.blocked_forgetDead, State.forgetDead_params]
    split_ifs <;> simp [forgetDeadOutcome]
  | rewrite r data =>
    simp only [performMove, rewriteMove, State.forgetDead_ports, State.pendAt_forgetDead]
    split
    · rfl
    · split
      · simp [forgetDeadOutcome]
      · split <;> simp [forgetDeadOutcome]
  | take r => simp [performMove, takeMove, forgetDeadOutcome]
  | accept r =>
    simp only [performMove, acceptMove, State.forgetDead_phase, State.pendAt_forgetDead]
    split
    · next i hp hslot =>
      rw [exec_of_ready (s := s.forgetDead.select r) ⟨by simpa using hp, by simpa using hslot⟩,
        exec_of_ready (s := s.select r) ⟨hp, hslot⟩]
      exact congrArg Host.Outcome.next (forgetDead_accept s hp r i.request)
    · simp [forgetDeadOutcome]
    · simp [forgetDeadOutcome]
  | answer a =>
    simp only [performMove, answerMove, State.forgetDead_span, State.forgetDead_params]
    split
    · simp [forgetDeadOutcome]
    · split
      · rfl
      · rfl
      · split <;> simp [forgetDeadOutcome]
  | complete =>
    simp only [performMove, completeMove, State.forgetDead_phase]
    split
    · simp [forgetDeadOutcome]
    · next hp =>
      have hlatch : s.forgetDead.latch = s.latch := by simp [State.forgetDead, hp]
      simp only [exec_eq, transactionStep, State.forgetDead_phase, State.forgetDead_params, hp, hlatch]
      split
      · exact congrArg Host.Outcome.next (forgetDead_complete s hp)
      · simp [forgetDeadOutcome]
  | reset =>
    simp only [performMove, resetMove, State.forgetDead_phase, State.forgetDead_params, State.forgetDead_agenda,
      State.forgetDead_tick]

end Dead

end Sys2Proof.Machine

namespace Sys2Proof

open Machine

/-- Settles O32: the same move is drawn, and no move reads a dead field. -/
theorem deadFieldsAreNeverRead : Obligations.DeadFieldsAreNeverRead := by
  intro s
  cases hadm : admission s.params with
  | some r => simp [step, systemStep, hadm]
  | none =>
    rw [step_eq_of_admitted hadm, step_eq_of_admitted (by simpa using hadm), State.nextMove_forgetDead,
      ← State.forgetDead_advance, performMove_forgetDead]

end Sys2Proof

namespace Sys2Proof.Machine

/-! ## Fault codes -/

section Recode

variable {s t : State} {m : Move} {codes : Option Nat} {f : IoCode → IoCode}

@[simp] theorem State.blocked_recode (r : Nat) : (s.recode codes f).blocked r = s.blocked r := by
  simp only [State.blocked, State.pendAt_recode, State.rspAt_recode, Option.isSome_map]
  rfl

theorem State.waits_recode (h : s.waits m) : (s.recode codes f).waits (m.recode f) := by
  cases m with
  | present | take | reset => exact h.elim
  | _ => simpa [State.waits, Move.recode] using h

theorem State.nextMove_recode (h : s.agenda ≠ []) : (s.recode codes f).nextMove = s.nextMove.recode f := by
  obtain ⟨m, ms, hms⟩ := List.exists_cons_of_ne_nil h
  simp [State.nextMove, hms]

theorem State.advance_recode : (s.recode codes f).advance = s.advance.recode codes f := by
  cases ha : s.agenda <;> simp [State.advance, State.recode, ha]

/-- D10, R92: every move leads from the renamed state to the renamed next state, where the new IOCODE has the codes. -/
theorem MoveEffect.recode (hf : ∀ code, s.params.admitsCode code = true → (s.params.withCodes codes).admitsCode (f code) = true)
    (h : MoveEffect s m t) : MoveEffect (s.recode codes f) (m.recode f) (t.recode codes f) := by
  cases h with
  | wait h => exact .wait (State.waits_recode h)
  | present hr hfree hi =>
    rw [State.recode_fillSlot]
    exact .present (by simpa using hr) (by simpa using hfree) (by simpa using hi)
  | rewrite hslot hi =>
    rw [State.recode_fillSlot]
    exact .rewrite (by simpa using hslot) hi
  | take r =>
    rw [State.recode_dropResponse]
    exact .take r
  | reject hp hslot he =>
    rw [raiseError, recode_respond, recode_of_validate f he, State.recode_emptySlot, State.recode_select]
    exact .reject hp (by simpa using hslot) he
  | issue hp hslot hv =>
    rw [recode_issue, State.recode_emptySlot, State.recode_select]
    exact .issue hp (by simpa using hslot) hv
  | answer hsp hd hfits => exact .answer hsp hd (Answer.fits_recode hf hfits)
  | complete hp hl ha =>
    rw [recode_respond, State.recode_takeAnswer, ← responseTo_recode]
    exact .complete hp hl (by simp [ha])
  | reset hp =>
    have hnew : (State.construct s.params s.agenda s.tick).recode codes f =
        State.construct (s.recode codes f).params (s.recode codes f).agenda (s.recode codes f).tick := by
      simp [State.recode, State.construct, Params.withCodes, Port.recode, Port.empty]
    rw [hnew]
    exact .reset hp

end Recode

end Sys2Proof.Machine

namespace Sys2Proof

open Machine

/-- Settles O50: the scheduled move of the renamed state is the renamed move, and `MoveEffect.recode` follows it. -/
theorem faultCodesAreOnlyCopied : Obligations.FaultCodesAreOnlyCopied := by
  intro s t codes f hagenda hf hstep
  obtain ⟨hadm, heffect⟩ := step_iff.mp hstep
  refine step_iff.mpr ⟨hadm, ?_⟩
  rw [State.nextMove_recode hagenda, State.advance_recode]
  exact heffect.recode (by simpa using hf)

end Sys2Proof
end
